-- ==== Sys2Proof/Word.lean ====
section
/-! DEFINITION. The word types of the machine: 00_scope.md R4, R6, R7. -/

namespace Sys2Proof

/-- A register value, an address, a program counter: 32 bits (R7, R20, R30). -/
abbrev Word := BitVec 32

/-- One byte of memory (R80). -/
abbrev Byte := BitVec 8

/-- A register number `x0` to `x31`, as the 5-bit fields `rd`, `rs1`, `rs2` hold it (R136). -/
abbrev Reg := BitVec 5

/-- A 12-bit CSR address (R4, R133). -/
abbrev CsrAddr := BitVec 12

end Sys2Proof
end

