-- ==== Sys2Proof/Syntax.lean ====
section
/-! DEFINITION. The 47 instructions of 30_encoding.md R140, in the order of its table, with the operands R155
gives them. Register operands are 5-bit numbers, immediates are the bits the spec names; a branch or jump
offset is the whole 13-bit or 21-bit number, of which bit 0 is 0 (WellFormed). -/

namespace Sys2Proof

/-- One constructor per row of `spec/opcode_table.json`. -/
inductive Instr where
  | bne (rs1 rs2 : Reg) (offset : BitVec 13)
  | beq (rs1 rs2 : Reg) (offset : BitVec 13)
  | blt (rs1 rs2 : Reg) (offset : BitVec 13)
  | bge (rs1 rs2 : Reg) (offset : BitVec 13)
  | bltu (rs1 rs2 : Reg) (offset : BitVec 13)
  | bgeu (rs1 rs2 : Reg) (offset : BitVec 13)
  | auipc (rd : Reg) (imm20 : BitVec 20)
  | slt (rd rs1 rs2 : Reg)
  | sltu (rd rs1 rs2 : Reg)
  | slti (rd rs1 : Reg) (imm12 : BitVec 12)
  | sltiu (rd rs1 : Reg) (imm12 : BitVec 12)
  | lui (rd : Reg) (imm20 : BitVec 20)
  | add (rd rs1 rs2 : Reg)
  | sub (rd rs1 rs2 : Reg)
  | addi (rd rs1 : Reg) (imm12 : BitVec 12)
  | jal (rd : Reg) (offset : BitVec 21)
  | jalr (rd rs1 : Reg) (offset : BitVec 12)
  | xor (rd rs1 rs2 : Reg)
  | or (rd rs1 rs2 : Reg)
  | and (rd rs1 rs2 : Reg)
  | ori (rd rs1 : Reg) (imm12 : BitVec 12)
  | xori (rd rs1 : Reg) (imm12 : BitVec 12)
  | andi (rd rs1 : Reg) (imm12 : BitVec 12)
  | sw (rs2 rs1 : Reg) (offset : BitVec 12)
  | lb (rd rs1 : Reg) (offset : BitVec 12)
  | lh (rd rs1 : Reg) (offset : BitVec 12)
  | lw (rd rs1 : Reg) (offset : BitVec 12)
  | lbu (rd rs1 : Reg) (offset : BitVec 12)
  | lhu (rd rs1 : Reg) (offset : BitVec 12)
  | sb (rs2 rs1 : Reg) (offset : BitVec 12)
  | sh (rs2 rs1 : Reg) (offset : BitVec 12)
  | srai (rd rs1 : Reg) (shamt : BitVec 5)
  | slli (rd rs1 : Reg) (shamt : BitVec 5)
  | sra (rd rs1 rs2 : Reg)
  | srl (rd rs1 rs2 : Reg)
  | sll (rd rs1 rs2 : Reg)
  | srli (rd rs1 : Reg) (shamt : BitVec 5)
  | fencei
  | fence (pred succ : BitVec 4)
  | csrrci (rd : Reg) (csr : CsrAddr) (uimm5 : BitVec 5)
  | ecall
  | ebreak
  | csrrw (rd : Reg) (csr : CsrAddr) (rs1 : Reg)
  | csrrs (rd : Reg) (csr : CsrAddr) (rs1 : Reg)
  | csrrc (rd : Reg) (csr : CsrAddr) (rs1 : Reg)
  | csrrwi (rd : Reg) (csr : CsrAddr) (uimm5 : BitVec 5)
  | csrrsi (rd : Reg) (csr : CsrAddr) (uimm5 : BitVec 5)
  deriving DecidableEq, Repr

end Sys2Proof
end

