-- ==== Sys2Proof/WellFormed.lean ====
section
/-! DEFINITION. Which terms of `Instr` an instruction word can stand for. Every register number, immediate,
shift amount and CSR address of its width is legal (30_encoding.md R136, R146: an unlisted CSR address is still
an instruction); the one check is that a branch or JAL offset is even, no field holding its bit 0 (R129, R131). -/

namespace Sys2Proof

/-- The offset of a branch is even (R129; 40_branch.md, "offset must be even"). -/
def branchOffsetOk (offset : BitVec 13) : Bool := !offset.getLsbD 0

/-- The offset of JAL is even (R131, R230). -/
def jumpOffsetOk (offset : BitVec 21) : Bool := !offset.getLsbD 0

/-- The instruction is one that some word encodes. -/
def Instr.wellFormed : Instr → Bool
  | .bne _ _ off => branchOffsetOk off
  | .beq _ _ off => branchOffsetOk off
  | .blt _ _ off => branchOffsetOk off
  | .bge _ _ off => branchOffsetOk off
  | .bltu _ _ off => branchOffsetOk off
  | .bgeu _ _ off => branchOffsetOk off
  | .jal _ off => jumpOffsetOk off
  | .auipc _ _ => true
  | .slt _ _ _ => true
  | .sltu _ _ _ => true
  | .slti _ _ _ => true
  | .sltiu _ _ _ => true
  | .lui _ _ => true
  | .add _ _ _ => true
  | .sub _ _ _ => true
  | .addi _ _ _ => true
  | .jalr _ _ _ => true
  | .xor _ _ _ => true
  | .or _ _ _ => true
  | .and _ _ _ => true
  | .ori _ _ _ => true
  | .xori _ _ _ => true
  | .andi _ _ _ => true
  | .sw _ _ _ => true
  | .lb _ _ _ => true
  | .lh _ _ _ => true
  | .lw _ _ _ => true
  | .lbu _ _ _ => true
  | .lhu _ _ _ => true
  | .sb _ _ _ => true
  | .sh _ _ _ => true
  | .srai _ _ _ => true
  | .slli _ _ _ => true
  | .sra _ _ _ => true
  | .srl _ _ _ => true
  | .sll _ _ _ => true
  | .srli _ _ _ => true
  | .fencei => true
  | .fence _ _ => true
  | .csrrci _ _ _ => true
  | .ecall => true
  | .ebreak => true
  | .csrrw _ _ _ => true
  | .csrrs _ _ _ => true
  | .csrrc _ _ _ => true
  | .csrrwi _ _ _ => true
  | .csrrsi _ _ _ => true

end Sys2Proof
end

