-- ==== Sys2Proof/Decode.lean ====
section
/-! DEFINITION. From an instruction word to an instruction and back, from the formats of 30_encoding.md R120 to
R126, the operand fields of R127 to R136, and the opcode map of R140 to R145. The decoder is total: every other
word is rejected, by the name of the clause of R145 it falls under. -/

namespace Sys2Proof

/-- Why a word is no instruction: the clauses (a) to (i) of R145, and too few bytes. -/
inductive DecodeReject where
  /-- R145 (a): an opcode other than the eleven of R141. -/
  | unknownOpcode
  /-- R145 (b): opcode 0x33 with a funct7 its funct3 does not have. -/
  | unknownFunct7
  /-- R145 (c): a shift by immediate whose bits 31:25 are not those of R132. -/
  | unknownShiftFunct7
  /-- R145 (d): opcode 0x03 with funct3 3, 6 or 7. -/
  | unknownLoad
  /-- R145 (e): opcode 0x23 with funct3 3 to 7. -/
  | unknownStore
  /-- R145 (f): opcode 0x63 with funct3 2 or 3. -/
  | unknownBranch
  /-- R145 (g): opcode 0x67 with funct3 1 to 7. -/
  | unknownJalr
  /-- R145 (h): opcode 0x0F with funct3 2 to 7. -/
  | unknownFence
  /-- R145 (i): opcode 0x73 with funct3 4, or funct3 0 and neither ECALL nor EBREAK. -/
  | unknownSystem
  /-- Fewer than the four bytes every instruction has (R120). -/
  | truncated
  deriving DecidableEq, Repr

/-- `opcode = w[6:0]` (R120). -/
def opcodeOf (w : Word) : BitVec 7 := w.extractLsb' 0 7
/-- `rd = w[11:7]` (R136). -/
def rdOf (w : Word) : Reg := w.extractLsb' 7 5
/-- `funct3 = w[14:12]` (R121 to R124). -/
def funct3Of (w : Word) : BitVec 3 := w.extractLsb' 12 3
/-- `rs1 = w[19:15]` (R136); in the CSR immediate forms this field is `uimm5` (R133). -/
def rs1Of (w : Word) : Reg := w.extractLsb' 15 5
/-- `rs2 = w[24:20]` (R136); in the shifts by immediate this field is `shamt` (R132). -/
def rs2Of (w : Word) : Reg := w.extractLsb' 20 5
/-- `funct7 = w[31:25]` (R121, R132). -/
def funct7Of (w : Word) : BitVec 7 := w.extractLsb' 25 7
/-- `imm12 = w[31:20]` (R127); in the CSR instructions this field is `csr` (R133). -/
def imm12Of (w : Word) : BitVec 12 := w.extractLsb' 20 12
/-- The store offset `{w[31:25], w[11:7]}` (R128). -/
def storeOffsetOf (w : Word) : BitVec 12 := w.extractLsb' 25 7 ++ w.extractLsb' 7 5
/-- `imm20 = w[31:12]` (R130). -/
def imm20Of (w : Word) : BitVec 20 := w.extractLsb' 12 20
/-- The branch offset `{w[31], w[7], w[30:25], w[11:8], 0}` (R129). -/
def branchOffsetOf (w : Word) : BitVec 13 :=
  w.extractLsb' 31 1 ++ w.extractLsb' 7 1 ++ w.extractLsb' 25 6 ++ w.extractLsb' 8 4 ++ 0#1
/-- The JAL offset `{w[31], w[19:12], w[20], w[30:21], 0}` (R131). -/
def jumpOffsetOf (w : Word) : BitVec 21 :=
  w.extractLsb' 31 1 ++ w.extractLsb' 12 8 ++ w.extractLsb' 20 1 ++ w.extractLsb' 21 10 ++ 0#1
/-- FENCE's `pred = w[27:24]` (R134). -/
def predOf (w : Word) : BitVec 4 := w.extractLsb' 24 4
/-- FENCE's `succ = w[23:20]` (R134). -/
def succOf (w : Word) : BitVec 4 := w.extractLsb' 20 4

/-- Opcode 0x33: told apart by funct3 and funct7 (R140, R145 (b), R220). -/
def decodeRegister (w : Word) : Except DecodeReject Instr :=
  if funct7Of w = 0x00#7 then
    if funct3Of w = 0#3 then .ok (.add (rdOf w) (rs1Of w) (rs2Of w))
    else if funct3Of w = 1#3 then .ok (.sll (rdOf w) (rs1Of w) (rs2Of w))
    else if funct3Of w = 2#3 then .ok (.slt (rdOf w) (rs1Of w) (rs2Of w))
    else if funct3Of w = 3#3 then .ok (.sltu (rdOf w) (rs1Of w) (rs2Of w))
    else if funct3Of w = 4#3 then .ok (.xor (rdOf w) (rs1Of w) (rs2Of w))
    else if funct3Of w = 5#3 then .ok (.srl (rdOf w) (rs1Of w) (rs2Of w))
    else if funct3Of w = 6#3 then .ok (.or (rdOf w) (rs1Of w) (rs2Of w))
    else .ok (.and (rdOf w) (rs1Of w) (rs2Of w))
  else if funct7Of w = 0x20#7 then
    if funct3Of w = 0#3 then .ok (.sub (rdOf w) (rs1Of w) (rs2Of w))
    else if funct3Of w = 5#3 then .ok (.sra (rdOf w) (rs1Of w) (rs2Of w))
    else .error .unknownFunct7
  else .error .unknownFunct7

/-- Opcode 0x13: told apart by funct3, the shifts by `w[31:25]` as well (R132, R140, R145 (c)). -/
def decodeImmediate (w : Word) : Except DecodeReject Instr :=
  if funct3Of w = 0#3 then .ok (.addi (rdOf w) (rs1Of w) (imm12Of w))
  else if funct3Of w = 1#3 then
    if funct7Of w = 0x00#7 then .ok (.slli (rdOf w) (rs1Of w) (rs2Of w)) else .error .unknownShiftFunct7
  else if funct3Of w = 2#3 then .ok (.slti (rdOf w) (rs1Of w) (imm12Of w))
  else if funct3Of w = 3#3 then .ok (.sltiu (rdOf w) (rs1Of w) (imm12Of w))
  else if funct3Of w = 4#3 then .ok (.xori (rdOf w) (rs1Of w) (imm12Of w))
  else if funct3Of w = 5#3 then
    if funct7Of w = 0x00#7 then .ok (.srli (rdOf w) (rs1Of w) (rs2Of w))
    else if funct7Of w = 0x20#7 then .ok (.srai (rdOf w) (rs1Of w) (rs2Of w))
    else .error .unknownShiftFunct7
  else if funct3Of w = 6#3 then .ok (.ori (rdOf w) (rs1Of w) (imm12Of w))
  else .ok (.andi (rdOf w) (rs1Of w) (imm12Of w))

/-- Opcode 0x03: the loads (R140, R145 (d)). -/
def decodeLoad (w : Word) : Except DecodeReject Instr :=
  if funct3Of w = 0#3 then .ok (.lb (rdOf w) (rs1Of w) (imm12Of w))
  else if funct3Of w = 1#3 then .ok (.lh (rdOf w) (rs1Of w) (imm12Of w))
  else if funct3Of w = 2#3 then .ok (.lw (rdOf w) (rs1Of w) (imm12Of w))
  else if funct3Of w = 4#3 then .ok (.lbu (rdOf w) (rs1Of w) (imm12Of w))
  else if funct3Of w = 5#3 then .ok (.lhu (rdOf w) (rs1Of w) (imm12Of w))
  else .error .unknownLoad

/-- Opcode 0x23: the stores (R140, R145 (e)). -/
def decodeStore (w : Word) : Except DecodeReject Instr :=
  if funct3Of w = 0#3 then .ok (.sb (rs2Of w) (rs1Of w) (storeOffsetOf w))
  else if funct3Of w = 1#3 then .ok (.sh (rs2Of w) (rs1Of w) (storeOffsetOf w))
  else if funct3Of w = 2#3 then .ok (.sw (rs2Of w) (rs1Of w) (storeOffsetOf w))
  else .error .unknownStore

/-- Opcode 0x63: the branches (R140, R145 (f), R206). -/
def decodeBranch (w : Word) : Except DecodeReject Instr :=
  if funct3Of w = 0#3 then .ok (.beq (rs1Of w) (rs2Of w) (branchOffsetOf w))
  else if funct3Of w = 1#3 then .ok (.bne (rs1Of w) (rs2Of w) (branchOffsetOf w))
  else if funct3Of w = 4#3 then .ok (.blt (rs1Of w) (rs2Of w) (branchOffsetOf w))
  else if funct3Of w = 5#3 then .ok (.bge (rs1Of w) (rs2Of w) (branchOffsetOf w))
  else if funct3Of w = 6#3 then .ok (.bltu (rs1Of w) (rs2Of w) (branchOffsetOf w))
  else if funct3Of w = 7#3 then .ok (.bgeu (rs1Of w) (rs2Of w) (branchOffsetOf w))
  else .error .unknownBranch

/-- Opcode 0x0F: recognised by funct3 alone, every other bit ignored but FENCE's two operands (R134, R282). -/
def decodeFence (w : Word) : Except DecodeReject Instr :=
  if funct3Of w = 0#3 then .ok (.fence (predOf w) (succOf w))
  else if funct3Of w = 1#3 then .ok .fencei
  else .error .unknownFence

/-- Opcode 0x73: the CSR instructions by funct3 (R133), ECALL and EBREAK as whole words (R135, R299). -/
def decodeSystem (w : Word) : Except DecodeReject Instr :=
  if funct3Of w = 0#3 then
    if w = 0x00000073#32 then .ok .ecall
    else if w = 0x00100073#32 then .ok .ebreak
    else .error .unknownSystem
  else if funct3Of w = 1#3 then .ok (.csrrw (rdOf w) (imm12Of w) (rs1Of w))
  else if funct3Of w = 2#3 then .ok (.csrrs (rdOf w) (imm12Of w) (rs1Of w))
  else if funct3Of w = 3#3 then .ok (.csrrc (rdOf w) (imm12Of w) (rs1Of w))
  else if funct3Of w = 5#3 then .ok (.csrrwi (rdOf w) (imm12Of w) (rs1Of w))
  else if funct3Of w = 6#3 then .ok (.csrrsi (rdOf w) (imm12Of w) (rs1Of w))
  else if funct3Of w = 7#3 then .ok (.csrrci (rdOf w) (imm12Of w) (rs1Of w))
  else .error .unknownSystem

/-- The instruction a word is, or the clause of R145 that makes it illegal (R140, R141). -/
def decode (w : Word) : Except DecodeReject Instr :=
  if opcodeOf w = 0x33#7 then decodeRegister w
  else if opcodeOf w = 0x13#7 then decodeImmediate w
  else if opcodeOf w = 0x37#7 then .ok (.lui (rdOf w) (imm20Of w))
  else if opcodeOf w = 0x17#7 then .ok (.auipc (rdOf w) (imm20Of w))
  else if opcodeOf w = 0x03#7 then decodeLoad w
  else if opcodeOf w = 0x23#7 then decodeStore w
  else if opcodeOf w = 0x63#7 then decodeBranch w
  else if opcodeOf w = 0x6F#7 then .ok (.jal (rdOf w) (jumpOffsetOf w))
  else if opcodeOf w = 0x67#7 then
    if funct3Of w = 0#3 then .ok (.jalr (rdOf w) (rs1Of w) (imm12Of w)) else .error .unknownJalr
  else if opcodeOf w = 0x0F#7 then decodeFence w
  else if opcodeOf w = 0x73#7 then decodeSystem w
  else .error .unknownOpcode

/-- The word four bytes make, the byte at the lowest address being bits 7:0 (R85, R88). -/
def wordOfBytes (b0 b1 b2 b3 : Byte) : Word := b3 ++ b2 ++ b1 ++ b0

/-- Byte `i` of a word, counted from the lowest address (R85, R87). -/
def byteOfWord (w : Word) (i : Nat) : Byte := w.extractLsb' (8 * i) 8

/-- The four bytes of a word, in the order of their addresses (R85, R88). -/
def bytesOfWord (w : Word) : List Byte := [byteOfWord w 0, byteOfWord w 1, byteOfWord w 2, byteOfWord w 3]

/-- The first instruction of a run of bytes and the bytes after it: always four bytes (R120). -/
def decodeBytes : List Byte → Except DecodeReject (Instr × List Byte)
  | b0 :: b1 :: b2 :: b3 :: rest =>
    match decode (wordOfBytes b0 b1 b2 b3) with
    | .ok i => .ok (i, rest)
    | .error e => .error e
  | _ => .error .truncated

/-- The low `nbits` bits of `w` as one instruction word, every bit above them 0. -/
def tableWord (nbits w : Nat) : Word := BitVec.ofNat 32 (w % 2 ^ nbits)

/-- The instruction read from a row of the opcode table: its word laid out as four bytes in memory order
(R85), given to the decoder. -/
def decodeTableWord (nbits w : Nat) : Option Instr :=
  match decodeBytes (bytesOfWord (tableWord nbits w)) with
  | .ok (i, _) => some i
  | .error _ => none

/-! ## The encoder -/

/-- R-type (R121). -/
def encodeR (funct7 : BitVec 7) (rs2 rs1 : Reg) (funct3 : BitVec 3) (rd : Reg) (opcode : BitVec 7) : Word :=
  funct7 ++ rs2 ++ rs1 ++ funct3 ++ rd ++ opcode

/-- I-type (R122). -/
def encodeI (imm : BitVec 12) (rs1 : Reg) (funct3 : BitVec 3) (rd : Reg) (opcode : BitVec 7) : Word :=
  imm ++ rs1 ++ funct3 ++ rd ++ opcode

/-- S-type: `imm[11:5]` above, `imm[4:0]` in the place of `rd` (R123). -/
def encodeS (imm : BitVec 12) (rs2 rs1 : Reg) (funct3 : BitVec 3) (opcode : BitVec 7) : Word :=
  imm.extractLsb' 5 7 ++ rs2 ++ rs1 ++ funct3 ++ imm.extractLsb' 0 5 ++ opcode

/-- B-type: `imm[12]`, `imm[10:5]`, then at the low end `imm[4:1]`, `imm[11]` (R124). -/
def encodeB (imm : BitVec 13) (rs2 rs1 : Reg) (funct3 : BitVec 3) (opcode : BitVec 7) : Word :=
  imm.extractLsb' 12 1 ++ imm.extractLsb' 5 6 ++ rs2 ++ rs1 ++ funct3 ++ imm.extractLsb' 1 4 ++
    imm.extractLsb' 11 1 ++ opcode

/-- U-type (R125). -/
def encodeU (imm : BitVec 20) (rd : Reg) (opcode : BitVec 7) : Word := imm ++ rd ++ opcode

/-- J-type: `imm[20]`, `imm[10:1]`, `imm[11]`, `imm[19:12]` (R126). -/
def encodeJ (imm : BitVec 21) (rd : Reg) (opcode : BitVec 7) : Word :=
  imm.extractLsb' 20 1 ++ imm.extractLsb' 1 10 ++ imm.extractLsb' 11 1 ++ imm.extractLsb' 12 8 ++ rd ++ opcode

/-- The word of an instruction (R140); the fields FENCE and FENCEI ignore are written as 0 (R280). -/
def encode : Instr → Word
  | .bne rs1 rs2 off => encodeB off rs2 rs1 1#3 0x63#7
  | .beq rs1 rs2 off => encodeB off rs2 rs1 0#3 0x63#7
  | .blt rs1 rs2 off => encodeB off rs2 rs1 4#3 0x63#7
  | .bge rs1 rs2 off => encodeB off rs2 rs1 5#3 0x63#7
  | .bltu rs1 rs2 off => encodeB off rs2 rs1 6#3 0x63#7
  | .bgeu rs1 rs2 off => encodeB off rs2 rs1 7#3 0x63#7
  | .auipc rd imm => encodeU imm rd 0x17#7
  | .slt rd rs1 rs2 => encodeR 0x00#7 rs2 rs1 2#3 rd 0x33#7
  | .sltu rd rs1 rs2 => encodeR 0x00#7 rs2 rs1 3#3 rd 0x33#7
  | .slti rd rs1 imm => encodeI imm rs1 2#3 rd 0x13#7
  | .sltiu rd rs1 imm => encodeI imm rs1 3#3 rd 0x13#7
  | .lui rd imm => encodeU imm rd 0x37#7
  | .add rd rs1 rs2 => encodeR 0x00#7 rs2 rs1 0#3 rd 0x33#7
  | .sub rd rs1 rs2 => encodeR 0x20#7 rs2 rs1 0#3 rd 0x33#7
  | .addi rd rs1 imm => encodeI imm rs1 0#3 rd 0x13#7
  | .jal rd off => encodeJ off rd 0x6F#7
  | .jalr rd rs1 off => encodeI off rs1 0#3 rd 0x67#7
  | .xor rd rs1 rs2 => encodeR 0x00#7 rs2 rs1 4#3 rd 0x33#7
  | .or rd rs1 rs2 => encodeR 0x00#7 rs2 rs1 6#3 rd 0x33#7
  | .and rd rs1 rs2 => encodeR 0x00#7 rs2 rs1 7#3 rd 0x33#7
  | .ori rd rs1 imm => encodeI imm rs1 6#3 rd 0x13#7
  | .xori rd rs1 imm => encodeI imm rs1 4#3 rd 0x13#7
  | .andi rd rs1 imm => encodeI imm rs1 7#3 rd 0x13#7
  | .sw rs2 rs1 off => encodeS off rs2 rs1 2#3 0x23#7
  | .lb rd rs1 off => encodeI off rs1 0#3 rd 0x03#7
  | .lh rd rs1 off => encodeI off rs1 1#3 rd 0x03#7
  | .lw rd rs1 off => encodeI off rs1 2#3 rd 0x03#7
  | .lbu rd rs1 off => encodeI off rs1 4#3 rd 0x03#7
  | .lhu rd rs1 off => encodeI off rs1 5#3 rd 0x03#7
  | .sb rs2 rs1 off => encodeS off rs2 rs1 0#3 0x23#7
  | .sh rs2 rs1 off => encodeS off rs2 rs1 1#3 0x23#7
  | .srai rd rs1 shamt => encodeR 0x20#7 shamt rs1 5#3 rd 0x13#7
  | .slli rd rs1 shamt => encodeR 0x00#7 shamt rs1 1#3 rd 0x13#7
  | .sra rd rs1 rs2 => encodeR 0x20#7 rs2 rs1 5#3 rd 0x33#7
  | .srl rd rs1 rs2 => encodeR 0x00#7 rs2 rs1 5#3 rd 0x33#7
  | .sll rd rs1 rs2 => encodeR 0x00#7 rs2 rs1 1#3 rd 0x33#7
  | .srli rd rs1 shamt => encodeR 0x00#7 shamt rs1 5#3 rd 0x13#7
  | .fencei => encodeI 0#12 0#5 1#3 0#5 0x0F#7
  | .fence pred succ => encodeI (0#4 ++ pred ++ succ) 0#5 0#3 0#5 0x0F#7
  | .csrrci rd csr uimm => encodeI csr uimm 7#3 rd 0x73#7
  | .ecall => 0x00000073#32
  | .ebreak => 0x00100073#32
  | .csrrw rd csr rs1 => encodeI csr rs1 1#3 rd 0x73#7
  | .csrrs rd csr rs1 => encodeI csr rs1 2#3 rd 0x73#7
  | .csrrc rd csr rs1 => encodeI csr rs1 3#3 rd 0x73#7
  | .csrrwi rd csr uimm => encodeI csr uimm 5#3 rd 0x73#7
  | .csrrsi rd csr uimm => encodeI csr uimm 6#3 rd 0x73#7

end Sys2Proof
end

