-- ==== Sys2Proof/Config.lean ====
section
/-! DEFINITION. The implementation parameters of 00_scope.md R5: the values the spec decides, and, for the
parameters it leaves OPEN, opaque constants that no proof can evaluate (free values). -/

namespace Sys2Proof.Config

/-- `MSTATUS_MIE_BIT` (R5, R45; D16). -/
def mieBit : Nat := 3

/-- `MSTATUS_MPIE_BIT` (R5, R45; D16). -/
def mpieBit : Nat := 7

/-- `MSTATUS_MPP_LO`: MPP is the two bits from here, 12:11 (R5, R45; D16). -/
def mppLo : Nat := 11

/-- `RESET_PC` (R5, R34). DESIGN CHOICE (unsafe, log entry 3): the spec leaves it open. -/
def resetPc : Word := 0

/-- `MISA_VALUE` (R5, R44): what `misa` holds. A free value (safe, log entry 4). -/
opaque misaValue : Word

/-- `MTVAL(cause, ctx)` (R5, R422): what a trap writes to `mtval`, given the exception's code, the information
it was raised with, and the number of the draw. A free value (safe, log entry 7). -/
opaque mtvalDraw (code : Nat) (info : Word) (draw : Nat) : Word

/-- `COUNTER_READ` (R5, R51) for the 64-bit counter `cycle`. A free value for every draw (safe, log entry 8). -/
opaque cycleDraw (draw : Nat) : BitVec 64

/-- `COUNTER_READ` (R5, R51) for the 64-bit counter `instret`. A free value for every draw (safe, log entry 8). -/
opaque instretDraw (draw : Nat) : BitVec 64

/-- `COUNTER_READ` (R5, R52) for `mhpmcounter3` to `mhpmcounter5`, by their number. A free value for every
draw (safe, log entry 8). -/
opaque hpmDraw (number : Nat) (draw : Nat) : Word

/-- Which of the values a stale byte has held a fetch delivers (R105), for the byte at this offset from the
pc. A free value for every draw (safe, log entry 10). -/
opaque staleChoice (draw : Nat) (offset : Nat) : Nat

end Sys2Proof.Config
end

