-- ==== Sys2Proof/Machine/State.lean ====
section
/-! DEFINITION. The state of the machine, as 10_state.md lists it: the general registers, the program counter, the
privilege mode, the 38 CSRs, the two 64-bit counters, memory and the hidden set `stale`; beside them two fields of
the model's own, the platform's answer `PMA` and the number of free values used up. -/

namespace Sys2Proof.Machine

/-- The privilege modes (10_state.md R35). -/
inductive Priv where
  /-- U, user. -/
  | user
  /-- S, supervisor. -/
  | supervisor
  /-- M, machine. -/
  | machine
  deriving DecidableEq, Repr

/-- The exceptions of 60_exceptions.md R400. -/
inductive Cause where
  | instructionAddressMisaligned
  | instructionAccessFault
  | illegalInstruction
  | breakpoint
  | loadAddressMisaligned
  | loadAccessFault
  | storeAddressMisaligned
  | storeAccessFault
  | ecallFromU
  | ecallFromS
  | ecallFromM
  deriving DecidableEq, Repr

/-- The kinds of access the platform is asked about (20_memory.md R81). -/
inductive AccessKind where
  | fetch
  | load
  | store
  deriving DecidableEq, Repr

/-- The platform refuses the accesses of this kind and of this many bytes whose address lies in `lo .. hi`, both
inclusive. A list of these records stands for the parameter `PMA(addr, n, kind)` of 20_memory.md R81; any predicate
on the 2^32 addresses, the three widths and the three kinds is such a list (log entry 6). -/
structure PmaHole where
  kind  : AccessKind
  bytes : Nat
  lo    : Nat
  hi    : Nat
  deriving DecidableEq, Repr

/-- The CSRs that have 32 bits of their own, in the order of 10_state.md R43. The six addresses that are halves of
the 64-bit counters (mcycle, minstret, ucycle, ucycleh, uinstret, uinstreth: R50) have no field here. -/
structure CsrFile where
  mstatus : Word
  misa : Word
  medeleg : Word
  mideleg : Word
  mie : Word
  mtvec : Word
  mcounteren : Word
  mscratch : Word
  mepc : Word
  mcause : Word
  mtval : Word
  mip : Word
  pmpcfg0 : Word
  pmpaddr0 : Word
  pmpaddr1 : Word
  pmpaddr2 : Word
  pmpaddr3 : Word
  mhpmcounter3 : Word
  mhpmcounter4 : Word
  mhpmcounter5 : Word
  mhpmevent3 : Word
  mhpmevent4 : Word
  mhpmevent5 : Word
  sstatus : Word
  sie : Word
  stvec : Word
  sscratch : Word
  sepc : Word
  scause : Word
  stval : Word
  sip : Word
  satp : Word
  deriving DecidableEq, Repr

/-- The CSRs after reset. The spec gives none a value (R60): zero is a DESIGN CHOICE (unsafe, log entry 2), and
`misa` holds the spec's open parameter (log entry 4). -/
def CsrFile.reset : CsrFile where
  mstatus := 0
  misa := Config.misaValue
  medeleg := 0
  mideleg := 0
  mie := 0
  mtvec := 0
  mcounteren := 0
  mscratch := 0
  mepc := 0
  mcause := 0
  mtval := 0
  mip := 0
  pmpcfg0 := 0
  pmpaddr0 := 0
  pmpaddr1 := 0
  pmpaddr2 := 0
  pmpaddr3 := 0
  mhpmcounter3 := 0
  mhpmcounter4 := 0
  mhpmcounter5 := 0
  mhpmevent3 := 0
  mhpmevent4 := 0
  mhpmevent5 := 0
  sstatus := 0
  sie := 0
  stvec := 0
  sscratch := 0
  sepc := 0
  scause := 0
  stval := 0
  sip := 0
  satp := 0

/-- Memory (10_state.md R65, 20_memory.md R80): the bytes that hold a value, by address. An address that is not
listed holds no value (R66; safe, log entry 5). -/
abbrev Memory := List Host.Cell

/-- The canonical form: addresses strictly rising and below 2^32. An unlisted address has no value, so no entry can
equal what it reads as. -/
abbrev Memory.wf (m : Memory) : Prop :=
  m.Pairwise (fun c d => c.1 < d.1) ∧ ∀ c ∈ m, c.1 < 2 ^ 32

/-- The state of the machine. -/
structure State where
  /-- `x1` to `x31`; `x0` has no storage (R20 to R22). -/
  x : Vector Word 31
  /-- The program counter (R30). -/
  pc : Word
  /-- The privilege mode (R35). -/
  priv : Priv
  /-- The CSRs with 32 bits of their own (R40, R43). -/
  csr : CsrFile
  /-- The hidden 64-bit cycle counter (R50). -/
  cycle : BitVec 64
  /-- The hidden 64-bit counter of retired instructions (R50). -/
  instret : BitVec 64
  /-- Memory (R65). -/
  mem : Memory
  /-- The hidden set `stale` (R70): one entry for each byte stored since the last FENCEI, the newest first, with
  what the byte held before that store (R105; log entry 10). -/
  stale : List (Nat × Option Byte)
  /-- The MODEL's own: the accesses the platform refuses (R81; log entry 6). No step changes it. -/
  pmaRefused : List PmaHole
  /-- The MODEL's own: how many free values have been used up (log entry 9). -/
  draws : Nat
  deriving DecidableEq, Repr

/-- The machine right after reset (70_reset_and_hazards.md R500). The mode, `stale` and memory are as the spec
says; the registers' zero, the pc and the platform are the model's (log entries 1, 2, 3, 6, 8, 9). -/
def State.reset : State where
  x := Vector.replicate 31 0
  pc := Config.resetPc
  priv := .machine
  csr := CsrFile.reset
  cycle := 0
  instret := 0
  mem := []
  stale := []
  pmaRefused := []
  draws := 0

/-- Why the model stops with a fault. Neither is an event of the machine: both are uses of a byte of memory that
holds no value (R66). -/
inductive Fault where
  /-- A load of a byte that neither the launch image nor a store gave a value, at this address (R66, U4). Raised by
  LB, LH, LW, LBU, LHU. Safe: the hardware goes on with some value. -/
  | loadOfUnwrittenByte (address : Nat)
  /-- A fetch of such a byte (R66, U4). Raised by the step. Safe: the hardware goes on with some word. -/
  | fetchOfUnwrittenByte (address : Nat)
  deriving DecidableEq, Repr

/-- Why the model has no meaning for what it is asked to run. -/
inductive Refusal where
  /-- An arm of exec that has no meaning yet. Raised by exec alone; none is left. Safe. -/
  | notModelled (mnemonic : String)
  /-- A CSR instruction that would change `misa`: the spec does not say whether it is writable and has the model
  refuse (R44, R298 step 4). Raised by the six CSR instructions. Safe. -/
  | misaWrite
  /-- A CSR instruction on `ucycle`, `ucycleh`, `uinstret` or `uinstreth` other than a set or clear with a zero mask:
  the spec does not say whether the write is ignored or traps and has the model refuse (R44, R53). Raised by the six
  CSR instructions. Safe. -/
  | readOnlyCounterWrite
  /-- A step of a machine that is not in M mode: the spec gives no rule for what U or S may access and has the model
  refuse such a start (R442, U23); no run from an M-mode state gets there. Raised by the step. Safe. -/
  | startedOutsideMachineMode
  deriving DecidableEq, Repr

/-- What a meaning answers. -/
abbrev Result := Host.Outcome State Fault Refusal

end Sys2Proof.Machine
end

