-- ==== Sys2Proof/Machine/Ops.lean ====
section
/-! DEFINITION. The named operations over the state: the updates of one field, the general registers, memory, the
platform's answer, the CSR file, and taking an exception. There is no return from one: the spec has no trap-return
instruction, and a handler returns with CSRRS and JALR (60_exceptions.md R425). -/

namespace Sys2Proof.Machine

/-! ## Updates of one field -/

def State.setPc (s : State) (v : Word) : State := { s with pc := v }
def State.setPriv (s : State) (p : Priv) : State := { s with priv := p }
def State.setCsr (s : State) (c : CsrFile) : State := { s with csr := c }
def State.setCycle (s : State) (v : BitVec 64) : State := { s with cycle := v }
def State.setInstret (s : State) (v : BitVec 64) : State := { s with instret := v }
def State.setMem (s : State) (m : Memory) : State := { s with mem := m }
def State.setStale (s : State) (l : List (Nat × Option Byte)) : State := { s with stale := l }
def State.setPma (s : State) (l : List PmaHole) : State := { s with pmaRefused := l }
/-- One more free value is used up. -/
def State.nextDraw (s : State) : State := { s with draws := s.draws + 1 }

/-- `pc <- pc + 4`, modulo 2^32 (R32). -/
def State.advance (s : State) : State := s.setPc (s.pc + 4)

/-! ## General registers -/

/-- `x[r]`: 0 for `x0`, else what the register holds (R21, R22). -/
def State.readX (s : State) (r : Reg) : Word :=
  if h : r = 0#5 then 0#32 else s.x[r.toNat - 1]'(by have := r.isLt; have : r.toNat ≠ 0 := fun e => h (BitVec.eq_of_toNat_eq e); omega)

/-- `x[r] <- v`: discarded for `x0` (R22). -/
def State.setX (s : State) (r : Reg) (v : Word) : State :=
  if h : r = 0#5 then s
  else { s with x := s.x.set (r.toNat - 1) v (by have := r.isLt; have : r.toNat ≠ 0 := fun e => h (BitVec.eq_of_toNat_eq e); omega) }

/-! ## Memory -/

/-- The byte at an address, if it holds a value (R66). -/
def Memory.byteAt : Memory → Nat → Option Byte
  | [], _ => none
  | (b, v) :: rest, a => if a = b then some v else Memory.byteAt rest a

/-- `MEM[a] <- v`, keeping the addresses rising. -/
def Memory.setByte : Memory → Nat → Byte → Memory
  | [], a, v => [(a, v)]
  | (b, w) :: rest, a, v =>
    if a < b then (a, v) :: (b, w) :: rest
    else if a = b then (a, v) :: rest
    else (b, w) :: Memory.setByte rest a v

/-- The address of byte `i` of a datum at `a`. An aligned datum never wraps (R83). -/
def byteAddr (a : Word) (i : Nat) : Nat := (a + BitVec.ofNat 32 i).toNat

/-- Bytes `i` to `i + n - 1` of the datum at `a`, the byte at the lowest address least significant (R85, R86);
the address of a byte that holds no value, if one does not (R66). -/
def readBytes (m : Memory) (a : Word) (i : Nat) : Nat → Except Nat Word
  | 0 => .ok 0
  | n + 1 =>
    match m.byteAt (byteAddr a i) with
    | none => .error (byteAddr a i)
    | some b =>
      match readBytes m a (i + 1) n with
      | .error e => .error e
      | .ok v => .ok ((v <<< 8) ||| b.setWidth 32)

/-- `MemRead(a, n)`, as the low `8n` bits of a word (R86). -/
def memRead (m : Memory) (a : Word) (n : Nat) : Except Nat Word := readBytes m a 0 n

/-- Byte `i` of a word goes to address `a + i`, for the first `n` bytes (R87). -/
def writeBytes (m : Memory) (a : Word) (v : Word) : Nat → Memory
  | 0 => m
  | n + 1 => (writeBytes m a v n).setByte (byteAddr a n) (byteOfWord v n)

/-- What the `n` bytes at `a` hold, each with its address: what a store makes stale (R87, R105). -/
def staleEntries (m : Memory) (a : Word) (n : Nat) : List (Nat × Option Byte) :=
  (List.range n).map (fun i => (byteAddr a i, m.byteAt (byteAddr a i)))

/-- `MemWrite(a, n, v)`: the bytes are stored and become stale (R87). -/
def State.memWrite (s : State) (a : Word) (n : Nat) (v : Word) : State :=
  (s.setMem (writeBytes s.mem a v n)).setStale (staleEntries s.mem a n ++ s.stale)

/-! ## The platform -/

/-- The hole covers an access. -/
def PmaHole.covers (h : PmaHole) (a n : Nat) (k : AccessKind) : Bool :=
  h.kind == k && h.bytes == n && Nat.ble h.lo a && Nat.ble a h.hi

/-- `PMA(a, n, kind)` (R81). -/
def State.pma (s : State) (a : Word) (n : Nat) (k : AccessKind) : Bool :=
  !s.pmaRefused.any (fun h => h.covers a.toNat n k)

/-- `a` is a multiple of `n` (R90, R91). -/
def alignedTo (a : Word) (n : Nat) : Bool := a.toNat % n == 0

/-! ## Taking an exception -/

/-- The exception code of 60_exceptions.md R400. -/
def Cause.code : Cause → Nat
  | .instructionAddressMisaligned => 0
  | .instructionAccessFault => 1
  | .illegalInstruction => 2
  | .breakpoint => 3
  | .loadAddressMisaligned => 4
  | .loadAccessFault => 5
  | .storeAddressMisaligned => 6
  | .storeAccessFault => 7
  | .ecallFromU => 8
  | .ecallFromS => 9
  | .ecallFromM => 11

/-- ECALL and EBREAK save the next pc, every other exception the pc (R420 step 1; 90_conflicts.md C3). -/
def Cause.savesNextPc : Cause → Bool
  | .breakpoint => true
  | .ecallFromU => true
  | .ecallFromS => true
  | .ecallFromM => true
  | .instructionAddressMisaligned => false
  | .instructionAccessFault => false
  | .illegalInstruction => false
  | .loadAddressMisaligned => false
  | .loadAccessFault => false
  | .storeAddressMisaligned => false
  | .storeAccessFault => false

/-- `PRIV_ENC` (R5, R45; D16): U = 0, S = 1, M = 3. -/
def Priv.encoding : Priv → Nat
  | .user => 0
  | .supervisor => 1
  | .machine => 3

/-- `v` with its `width` bits from bit `lo` replaced by `field`. -/
def setField (v : Word) (lo width field : Nat) : Word :=
  (v &&& ~~~(BitVec.ofNat 32 (2 ^ width - 1) <<< lo)) ||| (BitVec.ofNat 32 (field % 2 ^ width) <<< lo)

/-- `mstatus` on trap entry: MPP the mode, MPIE the old MIE, MIE 0, the other bits kept (R420 steps 4 to 6). -/
def mstatusOnTrap (m : Word) (p : Priv) : Word :=
  setField
    (setField (setField m Config.mppLo 2 p.encoding) Config.mpieBit 1 (m.getLsbD Config.mieBit).toNat)
    Config.mieBit 1 0

/-- The pc that trap entry saves (R420 step 1). -/
def Cause.epc (k : Cause) (pc : Word) : Word := if k.savesNextPc then pc + 4 else pc

/-- The CSRs after trap entry (R420 steps 1 to 6); `mtval` is a free value (R422; log entry 7). -/
def trapCsrs (k : Cause) (info : Word) (s : State) : CsrFile :=
  { s.csr with
    mepc := k.epc s.pc
    mcause := BitVec.ofNat 32 k.code
    mtval := Config.mtvalDraw k.code info s.draws
    mstatus := mstatusOnTrap s.csr.mstatus s.priv }

/-- TRAP ENTRY (60_exceptions.md R420), the one way an exception is taken: `info` is what it was raised with (R9). -/
def takeTrap (k : Cause) (info : Word) (s : State) : State :=
  (((s.setCsr (trapCsrs k info s)).setPriv .machine).setPc s.csr.mtvec).nextDraw

/-- `raise E(info)`: the instruction does nothing but trap entry (R9, R13, R423). -/
def raise (k : Cause) (info : Word) (s : State) : Result := .next (takeTrap k info s)

/-! ## The CSR file -/

/-- The 38 CSRs of 10_state.md R43, in its order. -/
inductive Csr where
  | mstatus | misa | medeleg | mideleg | mie | mtvec | mcounteren
  | mscratch | mepc | mcause | mtval | mip
  | pmpcfg0 | pmpaddr0 | pmpaddr1 | pmpaddr2 | pmpaddr3
  | mcycle | minstret | mhpmcounter3 | mhpmcounter4 | mhpmcounter5
  | mhpmevent3 | mhpmevent4 | mhpmevent5
  | ucycle | uinstret | ucycleh | uinstreth
  | sstatus | sie | stvec | sscratch | sepc | scause | stval | sip | satp
  deriving DecidableEq, Repr

/-- The behaviour classes of R44. -/
inductive CsrClass where
  | exact | status | store | ident | counter | roCounter
  deriving DecidableEq, Repr

/-- The address of a CSR (R43). -/
def Csr.addr : Csr → CsrAddr
  | .mstatus => 0x300#12
  | .misa => 0x301#12
  | .medeleg => 0x302#12
  | .mideleg => 0x303#12
  | .mie => 0x304#12
  | .mtvec => 0x305#12
  | .mcounteren => 0x306#12
  | .mscratch => 0x340#12
  | .mepc => 0x341#12
  | .mcause => 0x342#12
  | .mtval => 0x343#12
  | .mip => 0x344#12
  | .pmpcfg0 => 0x3A0#12
  | .pmpaddr0 => 0x3B0#12
  | .pmpaddr1 => 0x3B1#12
  | .pmpaddr2 => 0x3B2#12
  | .pmpaddr3 => 0x3B3#12
  | .mcycle => 0xB00#12
  | .minstret => 0xB02#12
  | .mhpmcounter3 => 0xB03#12
  | .mhpmcounter4 => 0xB04#12
  | .mhpmcounter5 => 0xB05#12
  | .mhpmevent3 => 0x323#12
  | .mhpmevent4 => 0x324#12
  | .mhpmevent5 => 0x325#12
  | .ucycle => 0xC00#12
  | .uinstret => 0xC02#12
  | .ucycleh => 0xC80#12
  | .uinstreth => 0xC82#12
  | .sstatus => 0x100#12
  | .sie => 0x104#12
  | .stvec => 0x105#12
  | .sscratch => 0x140#12
  | .sepc => 0x141#12
  | .scause => 0x142#12
  | .stval => 0x143#12
  | .sip => 0x144#12
  | .satp => 0x180#12

/-- Every CSR, in the order of R43. -/
def Csr.all : List Csr :=
  [.mstatus, .misa, .medeleg, .mideleg, .mie, .mtvec, .mcounteren, .mscratch, .mepc, .mcause, .mtval, .mip,
   .pmpcfg0, .pmpaddr0, .pmpaddr1, .pmpaddr2, .pmpaddr3, .mcycle, .minstret, .mhpmcounter3, .mhpmcounter4,
   .mhpmcounter5, .mhpmevent3, .mhpmevent4, .mhpmevent5, .ucycle, .uinstret, .ucycleh, .uinstreth,
   .sstatus, .sie, .stvec, .sscratch, .sepc, .scause, .stval, .sip, .satp]

/-- The CSR at an address, if the address is listed (R41). -/
def csrAt (a : CsrAddr) : Option Csr := Csr.all.find? (fun c => c.addr == a)

/-- The class column of R43. -/
def Csr.cls : Csr → CsrClass
  | .mstatus => .status
  | .misa => .ident
  | .mtvec => .exact
  | .mscratch => .exact
  | .mepc => .exact
  | .mcause => .exact
  | .mtval => .exact
  | .sscratch => .exact
  | .mcycle => .counter
  | .minstret => .counter
  | .mhpmcounter3 => .counter
  | .mhpmcounter4 => .counter
  | .mhpmcounter5 => .counter
  | .ucycle => .roCounter
  | .uinstret => .roCounter
  | .ucycleh => .roCounter
  | .uinstreth => .roCounter
  | .medeleg => .store
  | .mideleg => .store
  | .mie => .store
  | .mcounteren => .store
  | .mip => .store
  | .pmpcfg0 => .store
  | .pmpaddr0 => .store
  | .pmpaddr1 => .store
  | .pmpaddr2 => .store
  | .pmpaddr3 => .store
  | .mhpmevent3 => .store
  | .mhpmevent4 => .store
  | .mhpmevent5 => .store
  | .sstatus => .store
  | .sie => .store
  | .stvec => .store
  | .sepc => .store
  | .scause => .store
  | .stval => .store
  | .sip => .store
  | .satp => .store

/-- The 32 bits a CSR holds; the six counter halves are views of `cycle` and `instret` (R43, R50). -/
def State.csrValue (s : State) : Csr → Word
  | .mstatus => s.csr.mstatus
  | .misa => s.csr.misa
  | .medeleg => s.csr.medeleg
  | .mideleg => s.csr.mideleg
  | .mie => s.csr.mie
  | .mtvec => s.csr.mtvec
  | .mcounteren => s.csr.mcounteren
  | .mscratch => s.csr.mscratch
  | .mepc => s.csr.mepc
  | .mcause => s.csr.mcause
  | .mtval => s.csr.mtval
  | .mip => s.csr.mip
  | .pmpcfg0 => s.csr.pmpcfg0
  | .pmpaddr0 => s.csr.pmpaddr0
  | .pmpaddr1 => s.csr.pmpaddr1
  | .pmpaddr2 => s.csr.pmpaddr2
  | .pmpaddr3 => s.csr.pmpaddr3
  | .mcycle => s.cycle.extractLsb' 0 32
  | .minstret => s.instret.extractLsb' 0 32
  | .mhpmcounter3 => s.csr.mhpmcounter3
  | .mhpmcounter4 => s.csr.mhpmcounter4
  | .mhpmcounter5 => s.csr.mhpmcounter5
  | .mhpmevent3 => s.csr.mhpmevent3
  | .mhpmevent4 => s.csr.mhpmevent4
  | .mhpmevent5 => s.csr.mhpmevent5
  | .ucycle => s.cycle.extractLsb' 0 32
  | .uinstret => s.instret.extractLsb' 0 32
  | .ucycleh => s.cycle.extractLsb' 32 32
  | .uinstreth => s.instret.extractLsb' 32 32
  | .sstatus => s.csr.sstatus
  | .sie => s.csr.sie
  | .stvec => s.csr.stvec
  | .sscratch => s.csr.sscratch
  | .sepc => s.csr.sepc
  | .scause => s.csr.scause
  | .stval => s.csr.stval
  | .sip => s.csr.sip
  | .satp => s.csr.satp

/-- A 64-bit counter with its low half replaced (a write to `mcycle` or `minstret`, R50). -/
def setLowHalf (c : BitVec 64) (v : Word) : BitVec 64 := c.extractLsb' 32 32 ++ v

/-- `CSR[c] <- v` (R42, R44). A write that reaches `misa` or a read-only counter leaves it unchanged: it is one that
would not change it, every other being refused (`csrWriteRefusal`). -/
def State.csrSet (s : State) (c : Csr) (v : Word) : State :=
  match c with
  | .mstatus => s.setCsr { s.csr with mstatus := v }
  | .misa => s
  | .medeleg => s.setCsr { s.csr with medeleg := v }
  | .mideleg => s.setCsr { s.csr with mideleg := v }
  | .mie => s.setCsr { s.csr with mie := v }
  | .mtvec => s.setCsr { s.csr with mtvec := v }
  | .mcounteren => s.setCsr { s.csr with mcounteren := v }
  | .mscratch => s.setCsr { s.csr with mscratch := v }
  | .mepc => s.setCsr { s.csr with mepc := v }
  | .mcause => s.setCsr { s.csr with mcause := v }
  | .mtval => s.setCsr { s.csr with mtval := v }
  | .mip => s.setCsr { s.csr with mip := v }
  | .pmpcfg0 => s.setCsr { s.csr with pmpcfg0 := v }
  | .pmpaddr0 => s.setCsr { s.csr with pmpaddr0 := v }
  | .pmpaddr1 => s.setCsr { s.csr with pmpaddr1 := v }
  | .pmpaddr2 => s.setCsr { s.csr with pmpaddr2 := v }
  | .pmpaddr3 => s.setCsr { s.csr with pmpaddr3 := v }
  | .mcycle => s.setCycle (setLowHalf s.cycle v)
  | .minstret => s.setInstret (setLowHalf s.instret v)
  | .mhpmcounter3 => s.setCsr { s.csr with mhpmcounter3 := v }
  | .mhpmcounter4 => s.setCsr { s.csr with mhpmcounter4 := v }
  | .mhpmcounter5 => s.setCsr { s.csr with mhpmcounter5 := v }
  | .mhpmevent3 => s.setCsr { s.csr with mhpmevent3 := v }
  | .mhpmevent4 => s.setCsr { s.csr with mhpmevent4 := v }
  | .mhpmevent5 => s.setCsr { s.csr with mhpmevent5 := v }
  | .ucycle => s
  | .uinstret => s
  | .ucycleh => s
  | .uinstreth => s
  | .sstatus => s.setCsr { s.csr with sstatus := v }
  | .sie => s.setCsr { s.csr with sie := v }
  | .stvec => s.setCsr { s.csr with stvec := v }
  | .sscratch => s.setCsr { s.csr with sscratch := v }
  | .sepc => s.setCsr { s.csr with sepc := v }
  | .scause => s.setCsr { s.csr with scause := v }
  | .stval => s.setCsr { s.csr with stval := v }
  | .sip => s.setCsr { s.csr with sip := v }
  | .satp => s.setCsr { s.csr with satp := v }

/-- Before a counter is read the hardware has written it at times the spec leaves open: it holds a free value, the
two names of one half and both halves of one counter being of the same value (R50 to R52; log entry 8). -/
def State.refreshCounter (s : State) (c : Csr) : State :=
  match c with
  | .mcycle => (s.setCycle (Config.cycleDraw s.draws)).nextDraw
  | .ucycle => (s.setCycle (Config.cycleDraw s.draws)).nextDraw
  | .ucycleh => (s.setCycle (Config.cycleDraw s.draws)).nextDraw
  | .minstret => (s.setInstret (Config.instretDraw s.draws)).nextDraw
  | .uinstret => (s.setInstret (Config.instretDraw s.draws)).nextDraw
  | .uinstreth => (s.setInstret (Config.instretDraw s.draws)).nextDraw
  | .mhpmcounter3 => (s.setCsr { s.csr with mhpmcounter3 := Config.hpmDraw 3 s.draws }).nextDraw
  | .mhpmcounter4 => (s.setCsr { s.csr with mhpmcounter4 := Config.hpmDraw 4 s.draws }).nextDraw
  | .mhpmcounter5 => (s.setCsr { s.csr with mhpmcounter5 := Config.hpmDraw 5 s.draws }).nextDraw
  | .mstatus => s
  | .misa => s
  | .medeleg => s
  | .mideleg => s
  | .mie => s
  | .mtvec => s
  | .mcounteren => s
  | .mscratch => s
  | .mepc => s
  | .mcause => s
  | .mtval => s
  | .mip => s
  | .pmpcfg0 => s
  | .pmpaddr0 => s
  | .pmpaddr1 => s
  | .pmpaddr2 => s
  | .pmpaddr3 => s
  | .mhpmevent3 => s
  | .mhpmevent4 => s
  | .mhpmevent5 => s
  | .sstatus => s
  | .sie => s
  | .stvec => s
  | .sscratch => s
  | .sepc => s
  | .scause => s
  | .stval => s
  | .sip => s
  | .satp => s

/-- What a CSR instruction does with the old value (47_system.md R298 step 3). -/
inductive CsrOp where
  | write | set | clear
  deriving DecidableEq, Repr

/-- `new` (R298 step 3). -/
def CsrOp.apply (op : CsrOp) (old src : Word) : Word :=
  match op with
  | .write => src
  | .set => old ||| src
  | .clear => old &&& ~~~src

/-- Whether the spec settles what a write does: on `misa`, only one that would not change it (R44); on a read-only
counter, only a set or clear with a zero mask (R44, R53; log entry 11). -/
def csrWriteRefusal (c : Csr) (op : CsrOp) (src old : Word) : Option Refusal :=
  match c.cls with
  | .ident => if op.apply old src = old then none else some .misaWrite
  | .roCounter => if op ≠ .write ∧ src = 0 then none else some .readOnlyCounterWrite
  | .exact => none
  | .status => none
  | .store => none
  | .counter => none

/-- Steps (2) to (7) of R298 for a listed CSR. -/
def csrModify (c : Csr) (op : CsrOp) (rd : Reg) (src : Word) (s : State) : Result :=
  let t := s.refreshCounter c
  let old := t.csrValue c
  match csrWriteRefusal c op src old with
  | some r => .refused r
  | none => .next (((t.csrSet c (op.apply old src)).setX rd old).advance)

/-- THE CSR READ-MODIFY-WRITE (47_system.md R298): an unlisted address is an illegal instruction, raised with the
instruction's own `word` (R146, R403). -/
def csrInstruction (word : Word) (op : CsrOp) (rd : Reg) (csr : CsrAddr) (src : Word) (s : State) : Result :=
  match csrAt csr with
  | none => raise .illegalInstruction word s
  | some c => csrModify c op rd src s

end Sys2Proof.Machine
end

