-- ==== Sys2Proof/Machine/Operands.lean ====
section
/-! DEFINITION. The operand forms: the immediates as 32-bit numbers (30_encoding.md R127 to R133), the effective
address (44_memory_ops.md R250), the targets of transfers (R129, R131, R231) and the shift amounts (R132,
45_shift.md). -/

namespace Sys2Proof.Machine

/-- A 12-bit immediate or offset is sign-extended (R127, R128). -/
def signed12 (imm : BitVec 12) : Word := imm.signExtend 32

/-- `{imm20, 0x000}` (R130). -/
def upper20 (imm : BitVec 20) : Word := imm ++ 0#12

/-- `zimm = zext_32(uimm5)` (R133). -/
def zimm (uimm : BitVec 5) : Word := uimm.setWidth 32

/-- `ea = x[rs1] + off`, modulo 2^32 (R250). -/
def effectiveAddress (s : State) (rs1 : Reg) (offset : BitVec 12) : Word := s.readX rs1 + signed12 offset

/-- `pc + off` of a branch, modulo 2^32 (R129, R207). -/
def branchTarget (s : State) (offset : BitVec 13) : Word := s.pc + offset.signExtend 32

/-- `pc + off` of JAL, modulo 2^32 (R131, R230). -/
def jumpTarget (s : State) (offset : BitVec 21) : Word := s.pc + offset.signExtend 32

/-- JALR's target: bit 0 of the sum cleared, bit 1 not (R231). -/
def jalrTarget (s : State) (rs1 : Reg) (offset : BitVec 12) : Word :=
  (s.readX rs1 + signed12 offset) &&& 0xFFFFFFFE#32

/-- The amount of a shift by register: `x[rs2][4:0]` (45_shift.md). -/
def registerShamt (s : State) (rs2 : Reg) : Nat := (s.readX rs2).toNat % 32

/-- `sll` (00_scope.md R8). -/
def shiftLeft (v : Word) (n : Nat) : Word := v <<< n

/-- `srl` (00_scope.md R8). -/
def shiftRightLogical (v : Word) (n : Nat) : Word := v >>> n

/-- `sra` (00_scope.md R8). -/
def shiftRightArith (v : Word) (n : Nat) : Word := v.sshiftRight n

/-- `sext_32` of the low `8n` bits of a word (R7; LB, LH). -/
def signExtendBytes (v : Word) (n : Nat) : Word := (v.setWidth (8 * n)).signExtend 32

/-- `zext_32` of the low `8n` bits of a word (R7; LBU, LHU, and LW's whole word). -/
def zeroExtendBytes (v : Word) (n : Nat) : Word := (v.setWidth (8 * n)).setWidth 32

end Sys2Proof.Machine
end

