-- ==== Sys2Proof/Machine/Flags.lean ====
section
/-! DEFINITION. The machine has no flags register and no instruction has a flag side effect (10_state.md R75): what
other machines compute into flags, this one computes as a comparison of two words, for a branch to act on or for
SLT, SLTU, SLTI and SLTIU to put in a register. -/

namespace Sys2Proof.Machine

/-- `a <s b` (00_scope.md R7). -/
def lessSigned (a b : Word) : Bool := a.slt b

/-- `a <u b` (00_scope.md R7). -/
def lessUnsigned (a b : Word) : Bool := a.ult b

/-- The 32-bit value 1 or 0 (41_integer.md R211 to R214). -/
def truthWord (c : Bool) : Word := if c then 1 else 0

end Sys2Proof.Machine
end

