-- ==== Sys2Proof/Machine/Branch.lean ====
section
/-! DEFINITION. The six conditional branches (40_branch.md R200 to R207). -/

namespace Sys2Proof.Machine

/-- `if cond then pc <- pc + off else pc <- pc + 4`; the target is not checked here but when it is fetched
(40_branch.md, common part; 60_exceptions.md R401). -/
def branchIf (cond : Bool) (offset : BitVec 13) (s : State) : Result :=
  .next (if cond then s.setPc (branchTarget s offset) else s.advance)

/-- BNE (R200). -/
def execBne (rs1 rs2 : Reg) (offset : BitVec 13) (s : State) : Result :=
  branchIf (s.readX rs1 != s.readX rs2) offset s

/-- BEQ (R201). -/
def execBeq (rs1 rs2 : Reg) (offset : BitVec 13) (s : State) : Result :=
  branchIf (s.readX rs1 == s.readX rs2) offset s

/-- BLT (R202). -/
def execBlt (rs1 rs2 : Reg) (offset : BitVec 13) (s : State) : Result :=
  branchIf (lessSigned (s.readX rs1) (s.readX rs2)) offset s

/-- BGE (R203). -/
def execBge (rs1 rs2 : Reg) (offset : BitVec 13) (s : State) : Result :=
  branchIf (!lessSigned (s.readX rs1) (s.readX rs2)) offset s

/-- BLTU (R204; unsigned by its Description, 90_conflicts.md C7). -/
def execBltu (rs1 rs2 : Reg) (offset : BitVec 13) (s : State) : Result :=
  branchIf (lessUnsigned (s.readX rs1) (s.readX rs2)) offset s

/-- BGEU (R205; unsigned by its Description, 90_conflicts.md C7). -/
def execBgeu (rs1 rs2 : Reg) (offset : BitVec 13) (s : State) : Result :=
  branchIf (!lessUnsigned (s.readX rs1) (s.readX rs2)) offset s

end Sys2Proof.Machine
end

