-- ==== Sys2Proof/Machine/Integer.lean ====
section
/-! DEFINITION. The nine integer operations (41_integer.md R210 to R220). -/

namespace Sys2Proof.Machine

/-- `x[rd] <- v; pc <- pc + 4`: how every register operation ends (R22, R32). -/
def writeBack (rd : Reg) (v : Word) (s : State) : Result := .next ((s.setX rd v).advance)

/-- AUIPC (R210). -/
def execAuipc (rd : Reg) (imm20 : BitVec 20) (s : State) : Result := writeBack rd (s.pc + upper20 imm20) s

/-- SLT (R211). -/
def execSlt (rd rs1 rs2 : Reg) (s : State) : Result :=
  writeBack rd (truthWord (lessSigned (s.readX rs1) (s.readX rs2))) s

/-- SLTU (R212). -/
def execSltu (rd rs1 rs2 : Reg) (s : State) : Result :=
  writeBack rd (truthWord (lessUnsigned (s.readX rs1) (s.readX rs2))) s

/-- SLTI (R213). -/
def execSlti (rd rs1 : Reg) (imm12 : BitVec 12) (s : State) : Result :=
  writeBack rd (truthWord (lessSigned (s.readX rs1) (signed12 imm12))) s

/-- SLTIU: the immediate is sign-extended and then compared as unsigned (R214). -/
def execSltiu (rd rs1 : Reg) (imm12 : BitVec 12) (s : State) : Result :=
  writeBack rd (truthWord (lessUnsigned (s.readX rs1) (signed12 imm12))) s

/-- LUI (R215). -/
def execLui (rd : Reg) (imm20 : BitVec 20) (s : State) : Result := writeBack rd (upper20 imm20) s

/-- ADD (R216). -/
def execAdd (rd rs1 rs2 : Reg) (s : State) : Result := writeBack rd (s.readX rs1 + s.readX rs2) s

/-- SUB (R217). -/
def execSub (rd rs1 rs2 : Reg) (s : State) : Result := writeBack rd (s.readX rs1 - s.readX rs2) s

/-- ADDI (R218). -/
def execAddi (rd rs1 : Reg) (imm12 : BitVec 12) (s : State) : Result :=
  writeBack rd (s.readX rs1 + signed12 imm12) s

end Sys2Proof.Machine
end

