-- ==== Sys2Proof/Machine/Jump.lean ====
section
/-! DEFINITION. JAL and JALR (42_jump.md R230 to R234). -/

namespace Sys2Proof.Machine

/-- `x[rd] <- pc + 4; pc <- target`. The link is written whatever the target; a misaligned target is found when it
is fetched (R234). -/
def linkAndJump (rd : Reg) (target : Word) (s : State) : Result := .next ((s.setX rd (s.pc + 4)).setPc target)

/-- JAL (R230). -/
def execJal (rd : Reg) (offset : BitVec 21) (s : State) : Result := linkAndJump rd (jumpTarget s offset) s

/-- JALR: `x[rs1]` is read before the link is written (R231, R11). -/
def execJalr (rd rs1 : Reg) (offset : BitVec 12) (s : State) : Result :=
  linkAndJump rd (jalrTarget s rs1 offset) s

end Sys2Proof.Machine
end

