-- ==== Sys2Proof/Machine/LoadStore.lean ====
section
/-! DEFINITION. The eight memory operations (44_memory_ops.md R250 to R261). -/

namespace Sys2Proof.Machine

/-- A load of `n` bytes at `ea` (R259): misaligned first, then the platform, then the read, whose value `extend`
widens; a byte that holds no value is a fault of the model (R66). -/
def load (n : Nat) (extend : Word → Nat → Word) (rd : Reg) (ea : Word) (s : State) : Result :=
  if alignedTo ea n = false then raise .loadAddressMisaligned ea s
  else if s.pma ea n .load = false then raise .loadAccessFault ea s
  else
    match memRead s.mem ea n with
    | .error a => .fault (.loadOfUnwrittenByte a)
    | .ok v => writeBack rd (extend v n) s

/-- A store of the low `n` bytes of `v` at `ea` (R259, R87). -/
def store (n : Nat) (v : Word) (ea : Word) (s : State) : Result :=
  if alignedTo ea n = false then raise .storeAddressMisaligned ea s
  else if s.pma ea n .store = false then raise .storeAccessFault ea s
  else .next ((s.memWrite ea n v).advance)

/-- SW (R251). -/
def execSw (rs2 rs1 : Reg) (offset : BitVec 12) (s : State) : Result :=
  store 4 (s.readX rs2) (effectiveAddress s rs1 offset) s

/-- LB (R252). -/
def execLb (rd rs1 : Reg) (offset : BitVec 12) (s : State) : Result :=
  load 1 signExtendBytes rd (effectiveAddress s rs1 offset) s

/-- LH (R253). -/
def execLh (rd rs1 : Reg) (offset : BitVec 12) (s : State) : Result :=
  load 2 signExtendBytes rd (effectiveAddress s rs1 offset) s

/-- LW (R254). -/
def execLw (rd rs1 : Reg) (offset : BitVec 12) (s : State) : Result :=
  load 4 zeroExtendBytes rd (effectiveAddress s rs1 offset) s

/-- LBU (R255). -/
def execLbu (rd rs1 : Reg) (offset : BitVec 12) (s : State) : Result :=
  load 1 zeroExtendBytes rd (effectiveAddress s rs1 offset) s

/-- LHU (R256). -/
def execLhu (rd rs1 : Reg) (offset : BitVec 12) (s : State) : Result :=
  load 2 zeroExtendBytes rd (effectiveAddress s rs1 offset) s

/-- SB (R257). -/
def execSb (rs2 rs1 : Reg) (offset : BitVec 12) (s : State) : Result :=
  store 1 (s.readX rs2) (effectiveAddress s rs1 offset) s

/-- SH (R258). -/
def execSh (rs2 rs1 : Reg) (offset : BitVec 12) (s : State) : Result :=
  store 2 (s.readX rs2) (effectiveAddress s rs1 offset) s

end Sys2Proof.Machine
end

