-- ==== Sys2Proof/Machine/Logical.lean ====
section
/-! DEFINITION. The six logical operations (43_logical.md R240 to R245). -/

namespace Sys2Proof.Machine

/-- XOR (R240). -/
def execXor (rd rs1 rs2 : Reg) (s : State) : Result := writeBack rd (s.readX rs1 ^^^ s.readX rs2) s

/-- OR (R241). -/
def execOr (rd rs1 rs2 : Reg) (s : State) : Result := writeBack rd (s.readX rs1 ||| s.readX rs2) s

/-- AND (R242). -/
def execAnd (rd rs1 rs2 : Reg) (s : State) : Result := writeBack rd (s.readX rs1 &&& s.readX rs2) s

/-- ORI (R243). -/
def execOri (rd rs1 : Reg) (imm12 : BitVec 12) (s : State) : Result :=
  writeBack rd (s.readX rs1 ||| signed12 imm12) s

/-- XORI (R244). -/
def execXori (rd rs1 : Reg) (imm12 : BitVec 12) (s : State) : Result :=
  writeBack rd (s.readX rs1 ^^^ signed12 imm12) s

/-- ANDI (R245). -/
def execAndi (rd rs1 : Reg) (imm12 : BitVec 12) (s : State) : Result :=
  writeBack rd (s.readX rs1 &&& signed12 imm12) s

end Sys2Proof.Machine
end

