-- ==== Sys2Proof/Machine/Shift.lean ====
section
/-! DEFINITION. The six shifts (45_shift.md R270 to R276). -/

namespace Sys2Proof.Machine

/-- SRAI (R270). -/
def execSrai (rd rs1 : Reg) (shamt : BitVec 5) (s : State) : Result :=
  writeBack rd (shiftRightArith (s.readX rs1) shamt.toNat) s

/-- SLLI (R271). -/
def execSlli (rd rs1 : Reg) (shamt : BitVec 5) (s : State) : Result :=
  writeBack rd (shiftLeft (s.readX rs1) shamt.toNat) s

/-- SRA (R272). -/
def execSra (rd rs1 rs2 : Reg) (s : State) : Result :=
  writeBack rd (shiftRightArith (s.readX rs1) (registerShamt s rs2)) s

/-- SRL (R273). -/
def execSrl (rd rs1 rs2 : Reg) (s : State) : Result :=
  writeBack rd (shiftRightLogical (s.readX rs1) (registerShamt s rs2)) s

/-- SLL (R274). -/
def execSll (rd rs1 rs2 : Reg) (s : State) : Result :=
  writeBack rd (shiftLeft (s.readX rs1) (registerShamt s rs2)) s

/-- SRLI (R275). -/
def execSrli (rd rs1 : Reg) (shamt : BitVec 5) (s : State) : Result :=
  writeBack rd (shiftRightLogical (s.readX rs1) shamt.toNat) s

end Sys2Proof.Machine
end

