-- ==== Sys2Proof/Machine/Sync.lean ====
section
/-! DEFINITION. FENCEI and FENCE (46_sync.md R280 to R282). -/

namespace Sys2Proof.Machine

/-- FENCEI: `stale <- {}; pc <- pc + 4` (R280, R106). -/
def execFencei (s : State) : Result := .next ((s.setStale []).advance)

/-- FENCE: `pc <- pc + 4` and nothing else, for every `pred` and `succ`; `stale` stays (R281, R103). -/
def execFence (_pred _succ : BitVec 4) (s : State) : Result := .next s.advance

end Sys2Proof.Machine
end

