-- ==== Sys2Proof/Machine/System.lean ====
section
/-! DEFINITION. The eight system operations (47_system.md R290 to R299). -/

namespace Sys2Proof.Machine

/-- CSRRCI (R290). -/
def execCsrrci (rd : Reg) (csr : CsrAddr) (uimm5 : BitVec 5) (s : State) : Result :=
  csrInstruction (encode (.csrrci rd csr uimm5)) .clear rd csr (zimm uimm5) s

/-- The exception ECALL raises, by the mode it runs in (R291, R409). -/
def ecallCause : Priv → Cause
  | .user => .ecallFromU
  | .supervisor => .ecallFromS
  | .machine => .ecallFromM

/-- ECALL: always its exception, raised with 0 (R291, R409). -/
def execEcall (s : State) : Result := raise (ecallCause s.priv) 0 s

/-- EBREAK: always a breakpoint, raised with 0; it does not halt (R292, R404; 90_conflicts.md C8). -/
def execEbreak (s : State) : Result := raise .breakpoint 0 s

/-- CSRRW (R293). -/
def execCsrrw (rd : Reg) (csr : CsrAddr) (rs1 : Reg) (s : State) : Result :=
  csrInstruction (encode (.csrrw rd csr rs1)) .write rd csr (s.readX rs1) s

/-- CSRRS (R294). -/
def execCsrrs (rd : Reg) (csr : CsrAddr) (rs1 : Reg) (s : State) : Result :=
  csrInstruction (encode (.csrrs rd csr rs1)) .set rd csr (s.readX rs1) s

/-- CSRRC (R295). -/
def execCsrrc (rd : Reg) (csr : CsrAddr) (rs1 : Reg) (s : State) : Result :=
  csrInstruction (encode (.csrrc rd csr rs1)) .clear rd csr (s.readX rs1) s

/-- CSRRWI (R296). -/
def execCsrrwi (rd : Reg) (csr : CsrAddr) (uimm5 : BitVec 5) (s : State) : Result :=
  csrInstruction (encode (.csrrwi rd csr uimm5)) .write rd csr (zimm uimm5) s

/-- CSRRSI (R297). -/
def execCsrrsi (rd : Reg) (csr : CsrAddr) (uimm5 : BitVec 5) (s : State) : Result :=
  csrInstruction (encode (.csrrsi rd csr uimm5)) .set rd csr (zimm uimm5) s

end Sys2Proof.Machine
end

