-- ==== Sys2Proof/Machine/Fetch.lean ====
section
/-! DEFINITION. Fetching an instruction word (20_memory.md R88, R105), and placing one for the next step to fetch. -/

namespace Sys2Proof.Machine

/-- What a stale byte held before each store since the last FENCEI, the newest first; empty for a byte that is not
stale (R70). -/
def staleValues (l : List (Nat × Option Byte)) (a : Nat) : List (Option Byte) :=
  (l.filter (fun e => e.1 == a)).map (fun e => e.2)

/-- The byte a fetch delivers for address `a`, `i` bytes after the pc: memory's byte if it is not stale (R88), else
one of the values it has held since the last FENCEI, the spec leaving open which (R105; log entry 10). -/
def State.fetchByte (s : State) (a i : Nat) : Option Byte :=
  match staleValues s.stale a with
  | [] => s.mem.byteAt a
  | old :: olds =>
    (s.mem.byteAt a :: old :: olds).getD (Config.staleChoice s.draws i % (olds.length + 2)) (s.mem.byteAt a)

/-- Some byte of the word at the pc is stale (R105). -/
def State.fetchIsStale (s : State) : Bool :=
  (List.range 4).any (fun i => !(staleValues s.stale (byteAddr s.pc i)).isEmpty)

/-- The state after a fetch: a free value is used up if a byte was stale. -/
def State.afterFetch (s : State) : State := if s.fetchIsStale then s.nextDraw else s

/-- `Fetch(pc)` (R88); the address of a byte that holds no value, if one does not (R66). -/
def State.fetchWord (s : State) : Except Nat Word :=
  match s.fetchByte (byteAddr s.pc 0) 0 with
  | none => .error (byteAddr s.pc 0)
  | some b0 =>
    match s.fetchByte (byteAddr s.pc 1) 1 with
    | none => .error (byteAddr s.pc 1)
    | some b1 =>
      match s.fetchByte (byteAddr s.pc 2) 2 with
      | none => .error (byteAddr s.pc 2)
      | some b2 =>
        match s.fetchByte (byteAddr s.pc 3) 3 with
        | none => .error (byteAddr s.pc 3)
        | some b3 => .ok (wordOfBytes b0 b1 b2 b3)

/-- The address is one of the four bytes at `pc`. -/
def inWordAt (pc : Word) (a : Nat) : Bool := (List.range 4).any (fun i => byteAddr pc i == a)

/-- `w` stands at the pc as part of the launch image: its bytes in memory, none of them stale (R107), and no
platform refusal of their fetch. -/
def State.placeWord (s : State) (w : Word) : State :=
  ((s.setMem (writeBytes s.mem s.pc w 4)).setStale (s.stale.filter (fun e => !inWordAt s.pc e.1))).setPma
    (s.pmaRefused.filter (fun h => !h.covers s.pc.toNat 4 .fetch))

end Sys2Proof.Machine
end

