-- ==== Sys2Proof/Machine/Step.lean ====
section
/-! DEFINITION. The step of the machine (00_scope.md R13). -/

namespace Sys2Proof.Machine

/-- The step, in the order of R13 and R410: a misaligned pc, a refused fetch, the fetch, an illegal word, the
instruction. A machine that is not in M mode is refused (R442). -/
def step (s : State) : Host.Outcome State Fault Refusal :=
  if s.priv ≠ .machine then .refused .startedOutsideMachineMode
  else if alignedTo s.pc 4 = false then raise .instructionAddressMisaligned s.pc s
  else if s.pma s.pc 4 .fetch = false then raise .instructionAccessFault s.pc s
  else
    match s.fetchWord with
    | .error a => .fault (.fetchOfUnwrittenByte a)
    | .ok w =>
      match decode w with
      | .error _ => raise .illegalInstruction w s.afterFetch
      | .ok i => exec i s.afterFetch

/-- `s` with an instruction placed where its next step fetches. It stands for the launch image (log entry 18). -/
def State.withFetchWord (s : State) (nbits w : Nat) : State := s.placeWord (tableWord nbits w)

end Sys2Proof.Machine
end

