-- ==== Sys2Proof/Machine/OpcodeTable.lean ====
section
/-! DEFINITION. The opcode table of 30_encoding.md R140 as data, transcribed apart from the decoder and the encoder,
so that claims can hold them against it. -/

namespace Sys2Proof

/-- A row of the table: a word is the row's instruction when `w & mask = bits` (R140). -/
structure OpcodeRow where
  bits : Word
  mask : Word
  deriving DecidableEq, Repr

/-- A word is of a row (R140). -/
def OpcodeRow.has (r : OpcodeRow) (w : Word) : Prop := w &&& r.mask = r.bits

/-- The row of an instruction, as R140 prints its match and mask. -/
def Instr.row : Instr → OpcodeRow
  | .bne _ _ _ => ⟨0x00001063#32, 0x0000707F#32⟩
  | .beq _ _ _ => ⟨0x00000063#32, 0x0000707F#32⟩
  | .blt _ _ _ => ⟨0x00004063#32, 0x0000707F#32⟩
  | .bge _ _ _ => ⟨0x00005063#32, 0x0000707F#32⟩
  | .bltu _ _ _ => ⟨0x00006063#32, 0x0000707F#32⟩
  | .bgeu _ _ _ => ⟨0x00007063#32, 0x0000707F#32⟩
  | .auipc _ _ => ⟨0x00000017#32, 0x0000007F#32⟩
  | .slt _ _ _ => ⟨0x00002033#32, 0xFE00707F#32⟩
  | .sltu _ _ _ => ⟨0x00003033#32, 0xFE00707F#32⟩
  | .slti _ _ _ => ⟨0x00002013#32, 0x0000707F#32⟩
  | .sltiu _ _ _ => ⟨0x00003013#32, 0x0000707F#32⟩
  | .lui _ _ => ⟨0x00000037#32, 0x0000007F#32⟩
  | .add _ _ _ => ⟨0x00000033#32, 0xFE00707F#32⟩
  | .sub _ _ _ => ⟨0x40000033#32, 0xFE00707F#32⟩
  | .addi _ _ _ => ⟨0x00000013#32, 0x0000707F#32⟩
  | .jal _ _ => ⟨0x0000006F#32, 0x0000007F#32⟩
  | .jalr _ _ _ => ⟨0x00000067#32, 0x0000707F#32⟩
  | .xor _ _ _ => ⟨0x00004033#32, 0xFE00707F#32⟩
  | .or _ _ _ => ⟨0x00006033#32, 0xFE00707F#32⟩
  | .and _ _ _ => ⟨0x00007033#32, 0xFE00707F#32⟩
  | .ori _ _ _ => ⟨0x00006013#32, 0x0000707F#32⟩
  | .xori _ _ _ => ⟨0x00004013#32, 0x0000707F#32⟩
  | .andi _ _ _ => ⟨0x00007013#32, 0x0000707F#32⟩
  | .sw _ _ _ => ⟨0x00002023#32, 0x0000707F#32⟩
  | .lb _ _ _ => ⟨0x00000003#32, 0x0000707F#32⟩
  | .lh _ _ _ => ⟨0x00001003#32, 0x0000707F#32⟩
  | .lw _ _ _ => ⟨0x00002003#32, 0x0000707F#32⟩
  | .lbu _ _ _ => ⟨0x00004003#32, 0x0000707F#32⟩
  | .lhu _ _ _ => ⟨0x00005003#32, 0x0000707F#32⟩
  | .sb _ _ _ => ⟨0x00000023#32, 0x0000707F#32⟩
  | .sh _ _ _ => ⟨0x00001023#32, 0x0000707F#32⟩
  | .srai _ _ _ => ⟨0x40005013#32, 0xFE00707F#32⟩
  | .slli _ _ _ => ⟨0x00001013#32, 0xFE00707F#32⟩
  | .sra _ _ _ => ⟨0x40005033#32, 0xFE00707F#32⟩
  | .srl _ _ _ => ⟨0x00005033#32, 0xFE00707F#32⟩
  | .sll _ _ _ => ⟨0x00001033#32, 0xFE00707F#32⟩
  | .srli _ _ _ => ⟨0x00005013#32, 0xFE00707F#32⟩
  | .fencei => ⟨0x0000100F#32, 0x0000707F#32⟩
  | .fence _ _ => ⟨0x0000000F#32, 0x0000707F#32⟩
  | .csrrci _ _ _ => ⟨0x00007073#32, 0x0000707F#32⟩
  | .ecall => ⟨0x00000073#32, 0xFFFFFFFF#32⟩
  | .ebreak => ⟨0x00100073#32, 0xFFFFFFFF#32⟩
  | .csrrw _ _ _ => ⟨0x00001073#32, 0x0000707F#32⟩
  | .csrrs _ _ _ => ⟨0x00002073#32, 0x0000707F#32⟩
  | .csrrc _ _ _ => ⟨0x00003073#32, 0x0000707F#32⟩
  | .csrrwi _ _ _ => ⟨0x00005073#32, 0x0000707F#32⟩
  | .csrrsi _ _ _ => ⟨0x00006073#32, 0x0000707F#32⟩

end Sys2Proof
end

