-- ==== Sys2Proof/Machine/Run.lean ====
section
/-! DEFINITION. A run under the parameter `HALT(state)` (00_scope.md R5, 70_reset_and_hazards.md R530). The hardware has
no halt and no step reads the predicate: it is the caller's, checked between steps, and the argument of a run. -/

namespace Sys2Proof.Machine

/-- How a run of at most so many steps stands. -/
inductive RunEnd where
  /-- The run has ended: `HALT` holds of this state. -/
  | halted (s : State)
  /-- The steps are used up and `HALT` has held of no state yet. -/
  | running (s : State)
  /-- A step was a fault of the model. -/
  | fault (r : Fault)
  /-- A step was refused by the model. -/
  | refused (r : Refusal)
  deriving DecidableEq, Repr

/-- At most `k` steps from `s`, ending at the first state that `halt`, the spec's `HALT(state)`, holds of, `s` itself
included (R530). -/
def runUntil (halt : State → Bool) : Nat → State → RunEnd
  | 0, s => if halt s then .halted s else .running s
  | k + 1, s =>
    if halt s then .halted s
    else
      match step s with
      | .next t => runUntil halt k t
      | .fault r => .fault r
      | .refused r => .refused r

end Sys2Proof.Machine
end

