-- ==== Sys2Proof/Safety.lean ====
section
/-! DEFINITION. The terms claims are stated in: what stays unchanged (frames), what taking an exception does, what a
store does, the invariant of the machine, and a safe run. They read the state through the model's own accessors: one
general register, one CSR, one byte of memory. -/

namespace Sys2Proof.Machine

/-! ## Frames -/

/-- Every general register is unchanged. -/
def RegsKept (s t : State) : Prop := ∀ r, t.readX r = s.readX r

/-- Every general register but `rd` is unchanged. -/
def RegsKeptBut (rd : Reg) (s t : State) : Prop := ∀ r, r ≠ rd → t.readX r = s.readX r

/-- Every CSR that is not in the list is unchanged, read by its name. -/
def CsrsKeptBut (l : List Csr) (s t : State) : Prop := ∀ c, c ∉ l → t.csrValue c = s.csrValue c

/-- Every byte of memory is unchanged. -/
def BytesKept (s t : State) : Prop := ∀ a, t.mem.byteAt a = s.mem.byteAt a

/-- The mode, every CSR and both counters are unchanged. The hardware writes the counters at times of its own (R43); that
they stand still between two reads is the model's choice (log entry 8, unsafe). -/
def SystemKept (s t : State) : Prop :=
  t.priv = s.priv ∧ CsrsKeptBut [] s t ∧ t.cycle = s.cycle ∧ t.instret = s.instret

/-- Memory, the hidden set and the platform are unchanged. -/
def MemoryKept (s t : State) : Prop := BytesKept s t ∧ t.stale = s.stale ∧ t.pmaRefused = s.pmaRefused

/-- Everything but the general registers and the pc is unchanged, and no free value is used up. -/
def RestKept (s t : State) : Prop := SystemKept s t ∧ MemoryKept s t ∧ t.draws = s.draws

/-- `i` completes: exec answers a next state with this pc in which `rd` holds a value with property `P` (`x0` reads 0
whatever `rd` is), and nothing else has changed. -/
def CompletesWriting (i : Instr) (s : State) (rd : Reg) (P : Word → Prop) (pc : Word) : Prop :=
  ∃ t, exec i s = .next t ∧ t.pc = pc ∧ (rd ≠ 0#5 → P (t.readX rd)) ∧ t.readX 0#5 = 0#32 ∧
    RegsKeptBut rd s t ∧ RestKept s t

/-- `i` completes and changes the pc alone. -/
def CompletesJumping (i : Instr) (s : State) (pc : Word) : Prop :=
  ∃ t, exec i s = .next t ∧ t.pc = pc ∧ RegsKept s t ∧ RestKept s t

/-! ## Exceptions -/

/-- The bits of `mstatus` after trap entry from mode `p` (60_exceptions.md R420 steps 4 to 6, 10_state.md R45): MPP
(12:11) encodes the mode, MPIE (7) is the old MIE (3), MIE is 0, every other bit is kept. -/
def MstatusTrapped (old new : Word) (p : Priv) : Prop :=
  new.getLsbD 3 = false ∧ new.getLsbD 7 = old.getLsbD 3 ∧
  new.getLsbD 11 = (p == .supervisor || p == .machine) ∧ new.getLsbD 12 = (p == .machine) ∧
  ∀ i, i ≠ 3 → i ≠ 7 → i ≠ 11 → i ≠ 12 → new.getLsbD i = old.getLsbD i

/-- `t` is `s` after trap entry (60_exceptions.md R420) with this code and saved pc. `mtval` is left open (R422). That
the counters stand still is the model's choice (log entry 8, unsafe). -/
def TookTrap (s t : State) (code : Nat) (epc : Word) : Prop :=
  t.csr.mepc = epc ∧ t.csr.mcause = BitVec.ofNat 32 code ∧ MstatusTrapped s.csr.mstatus t.csr.mstatus s.priv ∧
  t.priv = .machine ∧ t.pc = s.csr.mtvec ∧
  CsrsKeptBut [.mepc, .mcause, .mtval, .mstatus] s t ∧ t.cycle = s.cycle ∧ t.instret = s.instret ∧
  RegsKept s t ∧ MemoryKept s t

/-- `i` does nothing but take the exception with this code and saved pc. -/
def Traps (i : Instr) (s : State) (code : Nat) (epc : Word) : Prop :=
  ∃ t, exec i s = .next t ∧ TookTrap s t code epc

/-- The step does nothing but take the exception with this code and saved pc. -/
def StepTraps (s : State) (code : Nat) (epc : Word) : Prop :=
  ∃ t, step s = .next t ∧ TookTrap s t code epc

/-! ## Memory -/

/-- The address has been stored to since the last FENCEI: the hidden set `stale` (10_state.md R70). -/
def State.isStale (s : State) (a : Nat) : Prop := ∃ v, (a, v) ∈ s.stale

/-- The `n` bytes at `ea` hold the values `b 0`, …, `b (n - 1)`. -/
def HoldsBytes (s : State) (ea : Word) (n : Nat) (b : Nat → Byte) : Prop :=
  ∀ i < n, s.mem.byteAt (byteAddr ea i) = some (b i)

/-- From `s` to `t`, exactly the low `n` bytes of `v` are stored at `ea`, least significant first, and the hidden set
gains exactly those addresses, each with what its byte held before (20_memory.md R87, R105; log entry 10). -/
def StoredBytes (s t : State) (ea : Word) (n : Nat) (v : Word) : Prop :=
  (∀ i < n, t.mem.byteAt (byteAddr ea i) = some (v.extractLsb' (8 * i) 8)) ∧
  (∀ a, (∀ i < n, a ≠ byteAddr ea i) → t.mem.byteAt a = s.mem.byteAt a) ∧
  (∀ a, t.isStale a ↔ s.isStale a ∨ ∃ i < n, a = byteAddr ea i) ∧
  (∀ e, e ∈ t.stale ↔ e ∈ s.stale ∨ ∃ i < n, e = (byteAddr ea i, s.mem.byteAt (byteAddr ea i)))

/-- `i` completes by storing the low `n` bytes of `v` at `ea`; the pc moves to the next instruction and nothing else
changes. -/
def CompletesStoring (i : Instr) (s : State) (ea : Word) (n : Nat) (v : Word) : Prop :=
  ∃ t, exec i s = .next t ∧ t.pc = s.pc + 4 ∧ StoredBytes s t ea n v ∧
    RegsKept s t ∧ SystemKept s t ∧ t.pmaRefused = s.pmaRefused ∧ t.draws = s.draws

/-! ## CSRs -/

/-- The CSRs that hold what is written to them: the classes EXACT, STATUS and STORE of 10_state.md R44. -/
def Csr.holdsWrites (c : Csr) : Prop := c.cls = .exact ∨ c.cls = .status ∨ c.cls = .store

/-- The CSRs that a refresh of the same counter changes: the halves of one 64-bit counter together (R50). -/
def Csr.sameCounter : Csr → List Csr
  | .mcycle => [.mcycle, .ucycle, .ucycleh]
  | .ucycle => [.mcycle, .ucycle, .ucycleh]
  | .ucycleh => [.mcycle, .ucycle, .ucycleh]
  | .minstret => [.minstret, .uinstret, .uinstreth]
  | .uinstret => [.minstret, .uinstret, .uinstreth]
  | .uinstreth => [.minstret, .uinstret, .uinstreth]
  | c => [c]

/-- `i` completes as a CSR instruction (47_system.md R298): `c` becomes `new`, `rd` gets `old`, the pc moves to the next
instruction, and nothing else changes. That the counters stand still is the model's choice (log entry 8, unsafe). -/
def CompletesCsr (i : Instr) (s : State) (rd : Reg) (c : Csr) (old new : Word) : Prop :=
  ∃ t, exec i s = .next t ∧ t.pc = s.pc + 4 ∧ t.csrValue c = new ∧
    (rd ≠ 0#5 → t.readX rd = old) ∧ t.readX 0#5 = 0#32 ∧ RegsKeptBut rd s t ∧
    CsrsKeptBut [c] s t ∧ t.cycle = s.cycle ∧ t.instret = s.instret ∧ t.priv = s.priv ∧ MemoryKept s t ∧
    t.draws = s.draws

/-- `i` is a CSR instruction that would write `new` to `misa` (class IDENT of R44, 47_system.md R298 step 4): it completes
and changes no CSR when that is what `misa` holds, and is refused by the model when it is not. -/
def AccessesMisa (i : Instr) (s : State) (rd : Reg) (new : Word) : Prop :=
  (new = s.csrValue .misa → CompletesCsr i s rd .misa (s.csrValue .misa) (s.csrValue .misa)) ∧
  (new ≠ s.csrValue .misa → exec i s = .refused .misaWrite)

/-- `i` completes as a CSR instruction on a counter (R44, R51, 47_system.md R298): for some old value, of which nothing is
said, `rd` gets it and the counter becomes `new` of it; the pc moves to the next instruction, and nothing else changes but
that counter. That the counter then holds that value, and that the other counters stand still, is the model's choice (log
entry 8, unsafe). -/
def CompletesCounter (i : Instr) (s : State) (rd : Reg) (c : Csr) (new : Word → Word) : Prop :=
  ∃ t, exec i s = .next t ∧ t.pc = s.pc + 4 ∧
    (∃ old, (rd ≠ 0#5 → t.readX rd = old) ∧ t.csrValue c = new old) ∧ t.readX 0#5 = 0#32 ∧ RegsKeptBut rd s t ∧
    CsrsKeptBut c.sameCounter s t ∧ t.priv = s.priv ∧ MemoryKept s t

/-! ## Instructions -/

/-- The CSR address of a CSR instruction. -/
def csrAddress : Instr → Option CsrAddr
  | .csrrw _ a _ | .csrrs _ a _ | .csrrc _ a _ | .csrrwi _ a _ | .csrrsi _ a _ | .csrrci _ a _ => some a
  | _ => none

/-- The instruction is one of the six CSR instructions. -/
def isCsr (i : Instr) : Bool := (csrAddress i).isSome

/-- The instruction is one of the three stores. -/
def isStore : Instr → Bool
  | .sb _ _ _ | .sh _ _ _ | .sw _ _ _ => true
  | _ => false

/-- The general register the instruction names as its destination, if it has one. -/
def destination : Instr → Option Reg
  | .auipc rd _ | .slt rd _ _ | .sltu rd _ _ | .slti rd _ _ | .sltiu rd _ _ | .lui rd _ | .add rd _ _ | .sub rd _ _
  | .addi rd _ _ | .jal rd _ | .jalr rd _ _ | .xor rd _ _ | .or rd _ _ | .and rd _ _ | .ori rd _ _ | .xori rd _ _
  | .andi rd _ _ | .lb rd _ _ | .lh rd _ _ | .lw rd _ _ | .lbu rd _ _ | .lhu rd _ _ | .srai rd _ _ | .slli rd _ _
  | .sra rd _ _ | .srl rd _ _ | .sll rd _ _ | .srli rd _ _ | .csrrci rd _ _ | .csrrw rd _ _ | .csrrs rd _ _
  | .csrrc rd _ _ | .csrrwi rd _ _ | .csrrsi rd _ _ => some rd
  | .bne _ _ _ | .beq _ _ _ | .blt _ _ _ | .bge _ _ _ | .bltu _ _ _ | .bgeu _ _ _ | .sw _ _ _ | .sb _ _ _
  | .sh _ _ _ | .fencei | .fence _ _ | .ecall | .ebreak => none

/-- The general register the instruction names as `rs1`, if it has one. -/
def source1 : Instr → Option Reg
  | .bne rs1 _ _ | .beq rs1 _ _ | .blt rs1 _ _ | .bge rs1 _ _ | .bltu rs1 _ _ | .bgeu rs1 _ _ | .slt _ rs1 _
  | .sltu _ rs1 _ | .slti _ rs1 _ | .sltiu _ rs1 _ | .add _ rs1 _ | .sub _ rs1 _ | .addi _ rs1 _ | .jalr _ rs1 _
  | .xor _ rs1 _ | .or _ rs1 _ | .and _ rs1 _ | .ori _ rs1 _ | .xori _ rs1 _ | .andi _ rs1 _ | .sw _ rs1 _
  | .lb _ rs1 _ | .lh _ rs1 _ | .lw _ rs1 _ | .lbu _ rs1 _ | .lhu _ rs1 _ | .sb _ rs1 _ | .sh _ rs1 _
  | .srai _ rs1 _ | .slli _ rs1 _ | .sra _ rs1 _ | .srl _ rs1 _ | .sll _ rs1 _ | .srli _ rs1 _ | .csrrw _ _ rs1
  | .csrrs _ _ rs1 | .csrrc _ _ rs1 => some rs1
  | .auipc _ _ | .lui _ _ | .jal _ _ | .fencei | .fence _ _ | .csrrci _ _ _ | .ecall | .ebreak | .csrrwi _ _ _
  | .csrrsi _ _ _ => none

/-- The general register the instruction names as `rs2`, if it has one. -/
def source2 : Instr → Option Reg
  | .bne _ rs2 _ | .beq _ rs2 _ | .blt _ rs2 _ | .bge _ rs2 _ | .bltu _ rs2 _ | .bgeu _ rs2 _ | .slt _ _ rs2
  | .sltu _ _ rs2 | .add _ _ rs2 | .sub _ _ rs2 | .xor _ _ rs2 | .or _ _ rs2 | .and _ _ rs2 | .sw rs2 _ _
  | .sb rs2 _ _ | .sh rs2 _ _ | .sra _ _ rs2 | .srl _ _ rs2 | .sll _ _ rs2 => some rs2
  | .auipc _ _ | .slti _ _ _ | .sltiu _ _ _ | .lui _ _ | .addi _ _ _ | .jal _ _ | .jalr _ _ _ | .ori _ _ _
  | .xori _ _ _ | .andi _ _ _ | .lb _ _ _ | .lh _ _ _ | .lw _ _ _ | .lbu _ _ _ | .lhu _ _ _ | .srai _ _ _
  | .slli _ _ _ | .srli _ _ _ | .fencei | .fence _ _ | .csrrci _ _ _ | .ecall | .ebreak | .csrrw _ _ _
  | .csrrs _ _ _ | .csrrc _ _ _ | .csrrwi _ _ _ | .csrrsi _ _ _ => none

/-- The two words differ at most in the `n` bits from bit `lo` on. -/
def SameOutside (lo n : Nat) (v w : Word) : Prop := ∀ k, k < lo ∨ lo + n ≤ k → v.getLsbD k = w.getLsbD k

/-- The word is an instruction of the same row of the opcode table as `i`. -/
def DecodesLike (v : Word) (i : Instr) : Prop := ∃ j, decode v = .ok j ∧ j.row = i.row

/-- Where a branch, JAL or JALR goes when it transfers control (42_jump.md R232). -/
def transferTarget (s : State) : Instr → Option Word
  | .bne _ _ off | .beq _ _ off | .blt _ _ off | .bge _ _ off | .bltu _ _ off | .bgeu _ _ off =>
    some (branchTarget s off)
  | .jal _ off => some (jumpTarget s off)
  | .jalr _ rs1 off => some (jalrTarget s rs1 off)
  | _ => none

/-! ## Runs -/

/-- The invariant: memory is in its canonical form, every stale byte lies in the address space and holds a value, and
the machine is in M mode (10_state.md R35, R70; 60_exceptions.md R441). -/
abbrev State.Inv (s : State) : Prop :=
  s.mem.wf ∧ (∀ e ∈ s.stale, (s.mem.byteAt e.1).isSome = true) ∧ s.priv = .machine

/-- The end-of-run predicate the spec's own programs use for `HALT` (70_reset_and_hazards.md R530): the pc is the
address of a `JAL x0, 0`, which a fetch that meets no stale byte delivers. One argument that `runUntil` takes. DESIGN
CHOICE (log entry 19): the predicate looks at the four bytes at the pc alone, so it holds at a pc that is not a multiple
of 4, and at one whose fetch the platform refuses, though the next step traps there; whether the spec's predicate does is
left open. -/
def State.atSelfLoop (s : State) : Bool := !s.fetchIsStale && decide (s.fetchWord = .ok 0x0000006F#32)

/-- `HALT` holds of no state that fewer than `k` steps from `s` reach. -/
def NoHaltBefore (halt : State → Bool) (k : Nat) (s : State) : Prop :=
  ∀ j < k, ∀ u, Host.Core.run core j s = .next u → halt u = false

/-- `k` steps end in a next state: no fault and no refusal of the model on the way. -/
def RunsSafely (k : Nat) (s : State) : Prop := ∃ t, Host.Core.run core k s = .next t

end Sys2Proof.Machine
end

