-- ==== Sys2Proof/Certificates/Slice0/Obligations.lean ====
section
/-! DEFINITION. The statements for the provers. Each docstring names the rule of spec/ it says; the value an
instruction computes is said in integers or bit by bit, by 00_scope.md R7 and R8, not by the model's own function. -/

open Sys2Proof Sys2Proof.Machine

/-! ## Encoding -/

/-- DECODE AND ENCODE AGREE (30_encoding.md R120 to R136, R140): the word of every well-formed instruction, every
operand at every value, decodes to that instruction. The branch layout is the spec's D35, the even offsets its D4, the
shift, ECALL and EBREAK words its D6 and D7, the place of `csr` and `uimm5` its D8, of `pred` and `succ` its D9. -/
def Obligations.DecodeOfEncode : Prop :=
  ∀ i : Instr, i.wellFormed = true → decode (encode i) = .ok i

/-- No bit of a word is dropped or misread: a word that decodes is the word of its instruction, but for the bits
that FENCE and FENCEI ignore (R134); and the instruction is well-formed. That those bits are ignored is the spec's
D9. -/
def Obligations.EncodeOfDecode : Prop :=
  ∀ (w : Word) (i : Instr), decode w = .ok i →
    i.wellFormed = true ∧
    encode i = (if opcodeOf w = 0x0F#7 then
        (if funct3Of w = 0#3 then w &&& 0x0FF0707F#32 else w &&& 0x0000707F#32)
      else w)

/-- R140: a word is the instruction of a row exactly when `w & mask = match`, for each of the 47 rows. The rows of
SRAI, SLLI and SRLI are the spec's D6, of ECALL and EBREAK its D7 (log entry 14), of FENCE and FENCEI its D9 (log
entry 21). -/
def Obligations.DecodeFollowsOpcodeTable : Prop :=
  ∀ (w : Word) (r : OpcodeRow), (∃ i, decode w = .ok i ∧ i.row = r) ↔ ((∃ i : Instr, i.row = r) ∧ r.has w)

/-- R145, R206, R220, R276, R282, R299: the words that are no instruction, clause by clause. That all of them are
illegal is the spec's D10. -/
def Obligations.IllegalWordsAreExactlyTheListed : Prop :=
  ∀ w : Word, (∃ e, decode w = .error e) ↔
    (opcodeOf w ∉ [0x33#7, 0x13#7, 0x37#7, 0x17#7, 0x03#7, 0x23#7, 0x63#7, 0x6F#7, 0x67#7, 0x0F#7, 0x73#7]) ∨
    (opcodeOf w = 0x33#7 ∧ funct7Of w ≠ 0x00#7 ∧ ¬ (funct7Of w = 0x20#7 ∧ (funct3Of w = 0#3 ∨ funct3Of w = 5#3))) ∨
    (opcodeOf w = 0x13#7 ∧ funct3Of w = 1#3 ∧ funct7Of w ≠ 0x00#7) ∨
    (opcodeOf w = 0x13#7 ∧ funct3Of w = 5#3 ∧ funct7Of w ≠ 0x00#7 ∧ funct7Of w ≠ 0x20#7) ∨
    (opcodeOf w = 0x03#7 ∧ funct3Of w ∈ [3#3, 6#3, 7#3]) ∨
    (opcodeOf w = 0x23#7 ∧ 3 ≤ (funct3Of w).toNat) ∨
    (opcodeOf w = 0x63#7 ∧ funct3Of w ∈ [2#3, 3#3]) ∨
    (opcodeOf w = 0x67#7 ∧ funct3Of w ≠ 0#3) ∨
    (opcodeOf w = 0x0F#7 ∧ 2 ≤ (funct3Of w).toNat) ∨
    (opcodeOf w = 0x73#7 ∧ funct3Of w = 4#3) ∨
    (opcodeOf w = 0x73#7 ∧ funct3Of w = 0#3 ∧ w ≠ 0x00000073#32 ∧ w ≠ 0x00100073#32)

/-- A few words the spec writes out in hexadecimal, each with its instruction (40_branch.md to 47_system.md). The
words of SRAI, FENCE and EBREAK rest on the spec's D6, D9, D7, the last line on its D10. -/
def Obligations.SpecWordsDecode : Prop :=
  decode 0x00629863#32 = .ok (.bne 5 6 16) ∧ decode 0xFE050CE3#32 = .ok (.beq 10 0 (-8)) ∧
  decode 0x12345297#32 = .ok (.auipc 5 0x12345) ∧ decode 0x407302B3#32 = .ok (.sub 5 6 7) ∧
  decode 0x344120EF#32 = .ok (.jal 1 0x12344) ∧ decode 0xFFC280E7#32 = .ok (.jalr 1 5 (-4)) ∧
  decode 0xF0036293#32 = .ok (.ori 5 6 (-256)) ∧ decode 0xFE712E23#32 = .ok (.sw 7 2 (-4)) ∧
  decode 0x40435293#32 = .ok (.srai 5 6 4) ∧ decode 0x0FF0000F#32 = .ok (.fence 15 15) ∧
  decode 0x300472F3#32 = .ok (.csrrci 5 0x300 8) ∧ decode 0x00100073#32 = .ok .ebreak ∧
  decode 0x30200073#32 = .error .unknownSystem

/-- 30_encoding.md R136: the register fields are `w[11:7]`, `w[19:15]` and `w[24:20]` in every instruction that has
them, and each takes all 32 values: with any other number there the word is the same instruction. -/
def Obligations.RegisterFields : Prop :=
  ∀ (w : Word) (i : Instr), decode w = .ok i →
    (∀ r, destination i = some r → r = w.extractLsb' 7 5 ∧ ∀ v, SameOutside 7 5 v w → DecodesLike v i) ∧
    (∀ r, source1 i = some r → r = w.extractLsb' 15 5 ∧ ∀ v, SameOutside 15 5 v w → DecodesLike v i) ∧
    (∀ r, source2 i = some r → r = w.extractLsb' 20 5 ∧ ∀ v, SameOutside 20 5 v w → DecodesLike v i)

/-- 30_encoding.md R125, R126, R130: the fields of LUI, AUIPC and JAL where the U-type and the J-type format have them,
and the value the U-type immediate stands for, as LUI writes it and as AUIPC at address 0 does. -/
def Obligations.UpperAndJumpFormats : Prop :=
  ∀ w : Word,
    (opcodeOf w = 0x37#7 → decode w = .ok (.lui (w.extractLsb' 7 5) (w.extractLsb' 12 20)) ∧
      ∀ s, ∃ t, exec (.lui (w.extractLsb' 7 5) (w.extractLsb' 12 20)) s = .next t ∧
        (w.extractLsb' 7 5 ≠ 0#5 → t.readX (w.extractLsb' 7 5) = w.extractLsb' 12 20 ++ 0#12)) ∧
    (opcodeOf w = 0x17#7 → decode w = .ok (.auipc (w.extractLsb' 7 5) (w.extractLsb' 12 20)) ∧
      ∀ s, s.pc = 0#32 → ∃ t, exec (.auipc (w.extractLsb' 7 5) (w.extractLsb' 12 20)) s = .next t ∧
        (w.extractLsb' 7 5 ≠ 0#5 → t.readX (w.extractLsb' 7 5) = w.extractLsb' 12 20 ++ 0#12)) ∧
    (opcodeOf w = 0x6F#7 → ∃ off, decode w = .ok (.jal (w.extractLsb' 7 5) off) ∧
      off.extractLsb' 20 1 = w.extractLsb' 31 1 ∧ off.extractLsb' 1 10 = w.extractLsb' 21 10 ∧
      off.extractLsb' 11 1 = w.extractLsb' 20 1 ∧ off.extractLsb' 12 8 = w.extractLsb' 12 8)

/-! ## The step -/

/-- R13: in M mode, with the pc a multiple of 4, the fetch allowed, no byte of the word stale, and the four bytes at
the pc those of a word that decodes to `i`, the step is exactly `i` at that state. The step adds nothing around
exec. The order of the checks is the spec's D11 and D14, the byte order its D1. -/
def Obligations.StepRunsTheDecodedInstruction : Prop :=
  ∀ (s : State) (w : Word) (i : Instr), s.priv = .machine → s.pc.toNat % 4 = 0 → s.pma s.pc 4 .fetch = true →
    (∀ k < 4, ¬ s.isStale (byteAddr s.pc k)) → HoldsBytes s s.pc 4 (fun k => w.extractLsb' (8 * k) 8) →
    decode w = .ok i → step s = exec i s

/-- Whatever a fetch delivers, a stale byte or not, the step runs the instruction it decodes to; if a byte was stale,
one free value is used up first. The model's choice among the two R105 offers (log entry 10). -/
def Obligations.StepRunsTheDeliveredWord : Prop :=
  ∀ (s : State) (w : Word) (i : Instr), s.priv = .machine → s.pc.toNat % 4 = 0 → s.pma s.pc 4 .fetch = true →
    s.fetchWord = .ok w → decode w = .ok i →
    ((∀ k < 4, ¬ s.isStale (byteAddr s.pc k)) → step s = exec i s) ∧
    ((∃ k < 4, s.isStale (byteAddr s.pc k)) → step s = exec i s.nextDraw)

/-- 20_memory.md R105, byte by byte: what a fetch delivers for an address is memory's byte or a value that `stale`
records with that address (StoresComplete says what a store records there); and no other than memory's when the
address is not stale (R88). To run on is the model's choice (log entry 10), and so is the record. -/
def Obligations.FetchDeliversAHeldByte : Prop :=
  ∀ (s : State) (a i : Nat),
    (s.fetchByte a i = s.mem.byteAt a ∨ ∃ v, (a, v) ∈ s.stale ∧ s.fetchByte a i = v) ∧
    (¬ s.isStale a → s.fetchByte a i = s.mem.byteAt a)

/-- 20_memory.md R91, 60_exceptions.md R401, R402: a pc that is not a multiple of 4 raises code 0 before any fetch,
whatever the platform answers; an aligned pc whose fetch the platform refuses raises code 1. The pc is saved. The
spec's D11, D13 and D14. That the counters stand still is the model's choice (log entry 8). -/
def Obligations.MisalignedOrRefusedFetchTraps : Prop :=
  ∀ s : State, s.priv = .machine →
    (s.pc.toNat % 4 ≠ 0 → StepTraps s 0 s.pc) ∧
    (s.pc.toNat % 4 = 0 → s.pma s.pc 4 .fetch = false → StepTraps s 1 s.pc)

/-- R145, R403: a fetched word that is no instruction raises code 2, with the pc saved, and has no other effect. The
spec's D10. That the counters stand still is the model's choice (log entry 8). -/
def Obligations.IllegalWordTraps : Prop :=
  ∀ (s : State) (w : Word) (e : DecodeReject), s.priv = .machine → s.pc.toNat % 4 = 0 → s.pma s.pc 4 .fetch = true →
    s.fetchWord = .ok w → decode w = .error e → StepTraps s 2 s.pc

/-- 10_state.md R66: a fetch of a byte that neither the launch image nor a store gave a value stops the model. The
spec's D29; log entry 5. -/
def Obligations.FetchOfNoValueStops : Prop :=
  ∀ s : State, s.priv = .machine → s.pc.toNat % 4 = 0 → s.pma s.pc 4 .fetch = true →
    (∃ k < 4, ¬ s.isStale (byteAddr s.pc k) ∧ s.mem.byteAt (byteAddr s.pc k) = none) →
    ∃ a, step s = .fault (.fetchOfUnwrittenByte a)

/-- R442: a machine that is not in M mode is refused. The spec's D21; log entry 12. -/
def Obligations.OtherModesAreRefused : Prop :=
  ∀ s : State, s.priv ≠ .machine → step s = .refused .startedOutsideMachineMode

/-- THE INVARIANT EVERY STEP KEEPS: memory stays in its canonical form, every stale byte holds a value, and the mode
stays M (R35, R70, R441). That the mode stays M is the spec's D21; the canonical form is the model's own. -/
def Obligations.StepKeepsTheInvariant : Prop :=
  ∀ s t : State, s.Inv → step s = .next t → t.Inv

/-- The invariant holds at reset. -/
def Obligations.ResetMeetsTheInvariant : Prop := State.reset.Inv

/-- The state after reset (R500): M mode, no stale byte, `x0` zero; and, by the MODEL's choice, no byte of memory
with a value: the spec gives memory the launch image, which the model has placed from outside (log entry 18). The
mode and `stale` are the spec's D29, D21 and D28. -/
def Obligations.ResetLeavesTheSpecsValues : Prop :=
  State.reset.priv = .machine ∧ (∀ a, ¬ State.reset.isStale a) ∧ State.reset.readX 0#5 = 0#32 ∧
  ∀ a, State.reset.mem.byteAt a = none

/-- The MODEL's choices for what the spec leaves open at reset (log entries 1, 2, 3, 6): registers and CSRs zero but for
`misa` and the counters, the pc zero, and no access refused by the platform. -/
def Obligations.ResetLeavesTheModelsChoices : Prop :=
  (∀ r, State.reset.readX r = 0#32) ∧ (∀ c, c.holdsWrites → State.reset.csrValue c = 0#32) ∧
  State.reset.pc = 0#32 ∧ ∀ a n k, State.reset.pma a n k = true

/-- No step changes `misa` (10_state.md R43, R44) or the platform's answers (log entry 6). That `misa` is never
written is the spec's D32; log entries 4, 6, 11. -/
def Obligations.StepKeepsMisaAndPlatform : Prop :=
  ∀ s t : State, step s = .next t → t.csrValue .misa = s.csrValue .misa ∧ ∀ a n k, t.pma a n k = s.pma a n k

/-- A byte of memory that holds a value holds one after every step. -/
def Obligations.BytesNeverLoseTheirValue : Prop :=
  ∀ (s t : State) (a : Nat), step s = .next t → (s.mem.byteAt a).isSome = true → (t.mem.byteAt a).isSome = true

/-- 60_exceptions.md R449: a program that wants to stop spins on `JAL x0, 0`. At such an instruction the machine
steps for ever without leaving the state. The end of a run is the parameter `HALT` (R5, 70_reset_and_hazards.md
R530), whatever predicate it is: a run ends at the first state it holds of, and goes on while it holds of none. The
spec's D33; log entry 19. That the WHOLE state stays, the counters with it, where R43 has the hardware write `cycle`
continuously and `instret` at retirement, is the model's choice (log entry 8, unsafe). -/
def Obligations.SelfLoopSpinsForEver : Prop :=
  (∀ (s : State) (k : Nat), s.priv = .machine → s.pc.toNat % 4 = 0 → s.pma s.pc 4 .fetch = true → s.atSelfLoop →
    Host.Core.run core k s = .next s) ∧
  ∀ (halt : State → Bool) (k : Nat) (s t : State),
    (runUntil halt k s = .halted t ↔
      ∃ j ≤ k, Host.Core.run core j s = .next t ∧ halt t = true ∧ NoHaltBefore halt j s) ∧
    (runUntil halt k s = .running t ↔ Host.Core.run core k s = .next t ∧ NoHaltBefore halt (k + 1) s)

/-! ## Whole-machine rules -/

/-- 42_jump.md R232: the complete list of what can make the pc differ from `pc + 4`: a branch, JAL or JALR going to
its target, or an exception. That the counters stand still is the model's choice (log entry 8). -/
def Obligations.OnlyTransfersAndTrapsMoveThePc : Prop :=
  ∀ (i : Instr) (s t : State), exec i s = .next t →
    (t.pc ≠ s.pc + 4 → transferTarget s i = some t.pc ∨ ∃ code epc, TookTrap s t code epc) ∧
    (i = .ecall ∨ i = .ebreak → ∃ code epc, TookTrap s t code epc)

/-- 10_state.md R24: no instruction writes a general register but the one its `rd` names. -/
def Obligations.OnlyTheDestinationRegisterChanges : Prop :=
  ∀ (i : Instr) (s t : State) (r : Reg), exec i s = .next t → destination i ≠ some r → t.readX r = s.readX r

/-- 10_state.md R65, R70: only SB, SH and SW change memory; `stale` grows by stores alone and FENCEI alone takes an
address out of it. The set `stale` is the spec's D28. -/
def Obligations.OnlyStoresAndFenceiChangeMemoryState : Prop :=
  ∀ (i : Instr) (s t : State) (a : Nat), exec i s = .next t →
    (isStore i = false → t.mem.byteAt a = s.mem.byteAt a) ∧
    (isStore i = false → t.isStale a → s.isStale a) ∧
    (i ≠ .fencei → s.isStale a → t.isStale a)

/-- 10_state.md R43, R44: without a CSR instruction, only trap entry writes a CSR, and only its four: if one of those
reads otherwise afterwards, the instruction took a trap (the spec's D22). The hardware writes the counters at times of
its own (R43): that they too stand still is the model's choice (log entry 8, unsafe). -/
def Obligations.OnlyCsrInstructionsAndTrapsWriteCsrs : Prop :=
  ∀ (i : Instr) (s t : State) (c : Csr), exec i s = .next t → isCsr i = false →
    (c ∉ [Csr.mepc, Csr.mcause, Csr.mtval, Csr.mstatus] → t.csrValue c = s.csrValue c) ∧
    (t.csrValue c ≠ s.csrValue c → ∃ code epc, TookTrap s t code epc)

/-- 10_state.md R44, R52, 20_memory.md R100, R101: a STORE register has no effect on anything but the CSR instructions
that name it: with another value in it, a step of any other instruction, a CSR instruction on another register
included, does the same. The spec's D22, D24 and D26. That the two machines also draw the SAME free values is the
model's choice: a read of a counter (R51 and R52 make it any value, under no law; the event of `mhpmcounter3` to `5` is
selected by `mhpmevent3` to `5`), `mtval` and a stale fetch depend on the number of the draw and never on a STORE
register (log entries 7, 8, 9 and 10). -/
def Obligations.StoreCsrsHaveNoEffect : Prop :=
  ∀ (s t : State) (c : Csr) (v : Word), c.cls = .store → step s = .next t →
    (∀ w i, s.fetchWord = .ok w → decode w = .ok i → csrAddress i ≠ some c.addr) →
    step (s.csrSet c v) = .next (t.csrSet c v)

/-! ## Exceptions -/

/-- 60_exceptions.md R420, R421, R424, R435: trap entry, for every exception: mepc the pc, or the next pc for codes 3,
8, 9 and 11; mcause the code; mstatus.MPP the mode, MPIE the old MIE, MIE 0; M mode; the pc at mtvec; nothing else
changes, whatever medeleg and mideleg hold. The mode change is the spec's D15, the bit positions its D16, that nothing
is delegated its D19. That the counters stand still is the model's choice (log entry 8). -/
def Obligations.TrapEntryIsAsTheSpecSays : Prop :=
  ∀ (k : Cause) (info : Word) (s : State),
    TookTrap s (takeTrap k info s) k.code (if k.code ∈ [3, 8, 9, 11] then s.pc + 4 else s.pc)

/-- 47_system.md R291, R292, 60_exceptions.md R404, R409: ECALL always takes the exception of the mode it runs in, 8,
9 or 11, and EBREAK exception 3; the next pc is saved. The trap is R420's, with the spec's D15 and D16. That the
counters stand still is the model's choice (log entry 8). -/
def Obligations.EcallEbreakTrap : Prop :=
  ∀ s : State, (s.priv = .user → Traps .ecall s 8 (s.pc + 4)) ∧ (s.priv = .supervisor → Traps .ecall s 9 (s.pc + 4)) ∧
    (s.priv = .machine → Traps .ecall s 11 (s.pc + 4)) ∧ Traps .ebreak s 3 (s.pc + 4)

/-! ## Branches -/

/-- 40_branch.md R200, R201, R207: BNE and BEQ, every offset that is even: their words, and where the pc goes. That a
branch completes at a misaligned target is the spec's D11 (log entry 15), the layout and the even offset its D35 and
D4 (log entry 14), the wrap of the sum its D3 (log entry 16). That the counters stand still is the model's choice (log
entry 8). -/
def Obligations.BneBeqBranch : Prop :=
  ∀ (rs1 rs2 : Reg) (off : BitVec 13) (s : State), off.getLsbD 0 = false →
    decode (encodeB off rs2 rs1 1#3 0x63#7) = .ok (.bne rs1 rs2 off) ∧
    decode (encodeB off rs2 rs1 0#3 0x63#7) = .ok (.beq rs1 rs2 off) ∧
    CompletesJumping (.bne rs1 rs2 off) s
      (if s.readX rs1 = s.readX rs2 then s.pc + 4 else BitVec.ofInt 32 ((s.pc.toNat : Int) + off.toInt)) ∧
    CompletesJumping (.beq rs1 rs2 off) s
      (if s.readX rs1 = s.readX rs2 then BitVec.ofInt 32 ((s.pc.toNat : Int) + off.toInt) else s.pc + 4)

/-- 40_branch.md R202, R203, R207: BLT and BGE compare as signed. That a branch completes at a misaligned target is
the spec's D11 (log entry 15), the layout and the even offset its D35 and D4 (log entry 14), the wrap of the sum its
D3 (log entry 16). That the counters stand still is the model's choice (log entry 8). -/
def Obligations.BltBgeBranchSigned : Prop :=
  ∀ (rs1 rs2 : Reg) (off : BitVec 13) (s : State), off.getLsbD 0 = false →
    decode (encodeB off rs2 rs1 4#3 0x63#7) = .ok (.blt rs1 rs2 off) ∧
    decode (encodeB off rs2 rs1 5#3 0x63#7) = .ok (.bge rs1 rs2 off) ∧
    CompletesJumping (.blt rs1 rs2 off) s
      (if (s.readX rs1).toInt < (s.readX rs2).toInt then BitVec.ofInt 32 ((s.pc.toNat : Int) + off.toInt) else s.pc + 4) ∧
    CompletesJumping (.bge rs1 rs2 off) s
      (if (s.readX rs1).toInt < (s.readX rs2).toInt then s.pc + 4 else BitVec.ofInt 32 ((s.pc.toNat : Int) + off.toInt))

/-- 40_branch.md R204, R205, R207: BLTU and BGEU compare as unsigned. That a branch completes at a misaligned target
is the spec's D11 (log entry 15), the layout and the even offset its D35 and D4 (log entry 14), the wrap of the sum
its D3 (log entry 16). That the counters stand still is the model's choice (log entry 8). -/
def Obligations.BltuBgeuBranchUnsigned : Prop :=
  ∀ (rs1 rs2 : Reg) (off : BitVec 13) (s : State), off.getLsbD 0 = false →
    decode (encodeB off rs2 rs1 6#3 0x63#7) = .ok (.bltu rs1 rs2 off) ∧
    decode (encodeB off rs2 rs1 7#3 0x63#7) = .ok (.bgeu rs1 rs2 off) ∧
    CompletesJumping (.bltu rs1 rs2 off) s
      (if (s.readX rs1).toNat < (s.readX rs2).toNat then BitVec.ofInt 32 ((s.pc.toNat : Int) + off.toInt) else s.pc + 4) ∧
    CompletesJumping (.bgeu rs1 rs2 off) s
      (if (s.readX rs1).toNat < (s.readX rs2).toNat then s.pc + 4 else BitVec.ofInt 32 ((s.pc.toNat : Int) + off.toInt))

/-! ## Integer operations -/

/-- 41_integer.md R216, R217, R218: ADD, SUB and ADDI, modulo 2^32; ADDI sign-extends its immediate. The wrap is the
spec's D3 (log entry 16). That the counters stand still is the model's choice (log entry 8). -/
def Obligations.AddSubAddiResults : Prop :=
  ∀ (rd rs1 rs2 : Reg) (imm : BitVec 12) (s : State),
    decode (0x00#7 ++ rs2 ++ rs1 ++ 0#3 ++ rd ++ 0x33#7) = .ok (.add rd rs1 rs2) ∧
    decode (0x20#7 ++ rs2 ++ rs1 ++ 0#3 ++ rd ++ 0x33#7) = .ok (.sub rd rs1 rs2) ∧
    decode (imm ++ rs1 ++ 0#3 ++ rd ++ 0x13#7) = .ok (.addi rd rs1 imm) ∧
    CompletesWriting (.add rd rs1 rs2) s rd
      (fun v => v.toNat = ((s.readX rs1).toNat + (s.readX rs2).toNat) % 2 ^ 32) (s.pc + 4) ∧
    CompletesWriting (.sub rd rs1 rs2) s rd
      (fun v => (v.toNat : Int) = (((s.readX rs1).toNat : Int) - (s.readX rs2).toNat) % 2 ^ 32) (s.pc + 4) ∧
    CompletesWriting (.addi rd rs1 imm) s rd
      (fun v => (v.toNat : Int) = (((s.readX rs1).toNat : Int) + imm.toInt) % 2 ^ 32) (s.pc + 4)

/-- 41_integer.md R211, R212: SLT compares as signed, SLTU as unsigned. That the counters stand still is the model's
choice (log entry 8). -/
def Obligations.SltSltuResults : Prop :=
  ∀ (rd rs1 rs2 : Reg) (s : State),
    decode (0x00#7 ++ rs2 ++ rs1 ++ 2#3 ++ rd ++ 0x33#7) = .ok (.slt rd rs1 rs2) ∧
    decode (0x00#7 ++ rs2 ++ rs1 ++ 3#3 ++ rd ++ 0x33#7) = .ok (.sltu rd rs1 rs2) ∧
    CompletesWriting (.slt rd rs1 rs2) s rd
      (fun v => v = if (s.readX rs1).toInt < (s.readX rs2).toInt then 1#32 else 0#32) (s.pc + 4) ∧
    CompletesWriting (.sltu rd rs1 rs2) s rd
      (fun v => v = if (s.readX rs1).toNat < (s.readX rs2).toNat then 1#32 else 0#32) (s.pc + 4)

/-- 41_integer.md R213, R214: SLTI compares with the signed immediate; SLTIU with the sign-extended immediate read as
unsigned. That the counters stand still is the model's choice (log entry 8). -/
def Obligations.SltiSltiuResults : Prop :=
  ∀ (rd rs1 : Reg) (imm : BitVec 12) (s : State),
    decode (imm ++ rs1 ++ 2#3 ++ rd ++ 0x13#7) = .ok (.slti rd rs1 imm) ∧
    decode (imm ++ rs1 ++ 3#3 ++ rd ++ 0x13#7) = .ok (.sltiu rd rs1 imm) ∧
    CompletesWriting (.slti rd rs1 imm) s rd
      (fun v => v = if (s.readX rs1).toInt < imm.toInt then 1#32 else 0#32) (s.pc + 4) ∧
    CompletesWriting (.sltiu rd rs1 imm) s rd
      (fun v => v = if ((s.readX rs1).toNat : Int) < imm.toInt % 2 ^ 32 then 1#32 else 0#32) (s.pc + 4)

/-- 41_integer.md R210, R215: LUI puts the immediate in the upper 20 bits; AUIPC adds that to its own address. The
wrap is the spec's D3 (log entry 16). That the counters stand still is the model's choice (log entry 8). -/
def Obligations.LuiAuipcResults : Prop :=
  ∀ (rd : Reg) (imm : BitVec 20) (s : State),
    decode (imm ++ rd ++ 0x37#7) = .ok (.lui rd imm) ∧
    decode (imm ++ rd ++ 0x17#7) = .ok (.auipc rd imm) ∧
    CompletesWriting (.lui rd imm) s rd (fun v => v.toNat = imm.toNat * 2 ^ 12) (s.pc + 4) ∧
    CompletesWriting (.auipc rd imm) s rd (fun v => v.toNat = (s.pc.toNat + imm.toNat * 2 ^ 12) % 2 ^ 32) (s.pc + 4)

/-! ## Jumps -/

/-- 42_jump.md R230: JAL links `pc + 4` and goes to `pc + offset`, even when the target is misaligned. That a
misaligned target does not trap here is the spec's D11. That the counters stand still is the model's choice (log entry
8). -/
def Obligations.JalLinksAndJumps : Prop :=
  ∀ (rd : Reg) (off : BitVec 21) (s : State), off.getLsbD 0 = false →
    decode (encodeJ off rd 0x6F#7) = .ok (.jal rd off) ∧
    CompletesWriting (.jal rd off) s rd (fun v => v.toNat = (s.pc.toNat + 4) % 2 ^ 32)
      (BitVec.ofInt 32 ((s.pc.toNat : Int) + off.toInt))

/-- 42_jump.md R231: JALR links `pc + 4` and goes to the sum of the OLD `x[rs1]` and the offset with bit 0 cleared,
and bit 0 only. That the old `x[rs1]` is read is the spec's D2, that a misaligned target does not trap here its D11.
That the counters stand still is the model's choice (log entry 8). -/
def Obligations.JalrLinksAndJumps : Prop :=
  ∀ (rd rs1 : Reg) (off : BitVec 12) (s : State),
    decode (off ++ rs1 ++ 0#3 ++ rd ++ 0x67#7) = .ok (.jalr rd rs1 off) ∧
    CompletesWriting (.jalr rd rs1 off) s rd (fun v => v.toNat = (s.pc.toNat + 4) % 2 ^ 32)
      (BitVec.ofInt 32 ((((s.readX rs1).toNat : Int) + off.toInt) % 2 ^ 32 / 2 * 2))

/-- 42_jump.md R234: a transfer to an address that is not a multiple of 4 has completed, link and all, and the NEXT
step takes exception 0 with the target saved. The spec's D11. That the counters stand still is the model's choice (log
entry 8). -/
def Obligations.MisalignedTargetTrapsAtTheNextStep : Prop :=
  ∀ (i : Instr) (s t : State), s.priv = .machine → transferTarget s i = some t.pc → exec i s = .next t →
    t.pc.toNat % 4 ≠ 0 →
    (∀ rd, destination i = some rd → rd ≠ 0#5 → t.readX rd = s.pc + 4) ∧ StepTraps t 0 t.pc

/-! ## Logical operations -/

/-- 43_logical.md R240 to R242: XOR, OR and AND, bit by bit. That the counters stand still is the model's choice (log
entry 8). -/
def Obligations.XorOrAndResults : Prop :=
  ∀ (rd rs1 rs2 : Reg) (s : State),
    decode (0x00#7 ++ rs2 ++ rs1 ++ 4#3 ++ rd ++ 0x33#7) = .ok (.xor rd rs1 rs2) ∧
    decode (0x00#7 ++ rs2 ++ rs1 ++ 6#3 ++ rd ++ 0x33#7) = .ok (.or rd rs1 rs2) ∧
    decode (0x00#7 ++ rs2 ++ rs1 ++ 7#3 ++ rd ++ 0x33#7) = .ok (.and rd rs1 rs2) ∧
    CompletesWriting (.xor rd rs1 rs2) s rd
      (fun v => ∀ k < 32, v.getLsbD k = ((s.readX rs1).getLsbD k != (s.readX rs2).getLsbD k)) (s.pc + 4) ∧
    CompletesWriting (.or rd rs1 rs2) s rd
      (fun v => ∀ k < 32, v.getLsbD k = ((s.readX rs1).getLsbD k || (s.readX rs2).getLsbD k)) (s.pc + 4) ∧
    CompletesWriting (.and rd rs1 rs2) s rd
      (fun v => ∀ k < 32, v.getLsbD k = ((s.readX rs1).getLsbD k && (s.readX rs2).getLsbD k)) (s.pc + 4)

/-- 43_logical.md R243 to R245: the immediate forms; bits 31:12 of the immediate are copies of its bit 11. That the
counters stand still is the model's choice (log entry 8). -/
def Obligations.XoriOriAndiResults : Prop :=
  ∀ (rd rs1 : Reg) (imm : BitVec 12) (s : State),
    decode (imm ++ rs1 ++ 4#3 ++ rd ++ 0x13#7) = .ok (.xori rd rs1 imm) ∧
    decode (imm ++ rs1 ++ 6#3 ++ rd ++ 0x13#7) = .ok (.ori rd rs1 imm) ∧
    decode (imm ++ rs1 ++ 7#3 ++ rd ++ 0x13#7) = .ok (.andi rd rs1 imm) ∧
    CompletesWriting (.xori rd rs1 imm) s rd
      (fun v => ∀ k < 32, v.getLsbD k = ((s.readX rs1).getLsbD k != imm.getLsbD (min k 11))) (s.pc + 4) ∧
    CompletesWriting (.ori rd rs1 imm) s rd
      (fun v => ∀ k < 32, v.getLsbD k = ((s.readX rs1).getLsbD k || imm.getLsbD (min k 11))) (s.pc + 4) ∧
    CompletesWriting (.andi rd rs1 imm) s rd
      (fun v => ∀ k < 32, v.getLsbD k = ((s.readX rs1).getLsbD k && imm.getLsbD (min k 11))) (s.pc + 4)

/-! ## Shifts -/

/-- 00_scope.md R8: what `sll`, `srl` and `sra` are, for every value and every amount from 0 to 31. -/
def Obligations.ShiftsAreAsDefined : Prop :=
  ∀ (v : Word) (n : Nat), n < 32 →
    (shiftLeft v n).toNat = v.toNat * 2 ^ n % 2 ^ 32 ∧ (shiftRightLogical v n).toNat = v.toNat / 2 ^ n ∧
    shiftRightArith v n = BitVec.ofInt 32 (v.toInt / 2 ^ n)

/-- 45_shift.md R272 to R274 by 00_scope.md R8: the register shifts take the low 5 bits of `x[rs2]`. That the counters
stand still is the model's choice (log entry 8). -/
def Obligations.RegisterShiftResults : Prop :=
  ∀ (rd rs1 rs2 : Reg) (s : State),
    decode (0x20#7 ++ rs2 ++ rs1 ++ 5#3 ++ rd ++ 0x33#7) = .ok (.sra rd rs1 rs2) ∧
    decode (0x00#7 ++ rs2 ++ rs1 ++ 5#3 ++ rd ++ 0x33#7) = .ok (.srl rd rs1 rs2) ∧
    decode (0x00#7 ++ rs2 ++ rs1 ++ 1#3 ++ rd ++ 0x33#7) = .ok (.sll rd rs1 rs2) ∧
    CompletesWriting (.sra rd rs1 rs2) s rd
      (fun v => v.toInt = (s.readX rs1).toInt / 2 ^ ((s.readX rs2).toNat % 32)) (s.pc + 4) ∧
    CompletesWriting (.srl rd rs1 rs2) s rd
      (fun v => v.toNat = (s.readX rs1).toNat / 2 ^ ((s.readX rs2).toNat % 32)) (s.pc + 4) ∧
    CompletesWriting (.sll rd rs1 rs2) s rd
      (fun v => v.toNat = (s.readX rs1).toNat * 2 ^ ((s.readX rs2).toNat % 32) % 2 ^ 32) (s.pc + 4)

/-- 45_shift.md R270, R271, R275 by 00_scope.md R8: the shifts by immediate. The words are the spec's D6. That the
counters stand still is the model's choice (log entry 8). -/
def Obligations.ImmediateShiftResults : Prop :=
  ∀ (rd rs1 : Reg) (shamt : BitVec 5) (s : State),
    decode (0x20#7 ++ shamt ++ rs1 ++ 5#3 ++ rd ++ 0x13#7) = .ok (.srai rd rs1 shamt) ∧
    decode (0x00#7 ++ shamt ++ rs1 ++ 5#3 ++ rd ++ 0x13#7) = .ok (.srli rd rs1 shamt) ∧
    decode (0x00#7 ++ shamt ++ rs1 ++ 1#3 ++ rd ++ 0x13#7) = .ok (.slli rd rs1 shamt) ∧
    CompletesWriting (.srai rd rs1 shamt) s rd
      (fun v => v.toInt = (s.readX rs1).toInt / 2 ^ shamt.toNat) (s.pc + 4) ∧
    CompletesWriting (.srli rd rs1 shamt) s rd
      (fun v => v.toNat = (s.readX rs1).toNat / 2 ^ shamt.toNat) (s.pc + 4) ∧
    CompletesWriting (.slli rd rs1 shamt) s rd
      (fun v => v.toNat = (s.readX rs1).toNat * 2 ^ shamt.toNat % 2 ^ 32) (s.pc + 4)

/-! ## Memory operations -/

/-- 44_memory_ops.md R250: the one addressing mode, base plus signed displacement, modulo 2^32. That the
displacement is signed is the spec's D5. -/
def Obligations.EffectiveAddressIsBasePlusOffset : Prop :=
  ∀ (s : State) (rs1 : Reg) (off : BitVec 12),
    ((effectiveAddress s rs1 off).toNat : Int) = (((s.readX rs1).toNat : Int) + off.toInt) % 2 ^ 32

/-- 20_memory.md R83: the bytes of an aligned access never run past the top of the address space. The spec derives
it from R90. -/
def Obligations.AlignedAccessesDoNotWrap : Prop :=
  ∀ (a : Word) (n i : Nat), n ∈ [1, 2, 4] → a.toNat % n = 0 → i < n →
    byteAddr a i = a.toNat + i ∧ a.toNat + n ≤ 2 ^ 32

/-- 44_memory_ops.md R252 to R256: the five loads, when aligned and allowed and the bytes hold values: LB and LBU
anywhere, LH and LHU at an even address, LW at a multiple of 4. The platform's part is the spec's D13, the byte order
its D1, the alignment its D12. That the counters stand still is the model's choice (log entry 8). -/
def Obligations.LoadsComplete : Prop :=
  ∀ (rd rs1 : Reg) (off : BitVec 12) (s : State) (b : Nat → Byte),
    decode (off ++ rs1 ++ 0#3 ++ rd ++ 0x03#7) = .ok (.lb rd rs1 off) ∧
    decode (off ++ rs1 ++ 4#3 ++ rd ++ 0x03#7) = .ok (.lbu rd rs1 off) ∧
    decode (off ++ rs1 ++ 1#3 ++ rd ++ 0x03#7) = .ok (.lh rd rs1 off) ∧
    decode (off ++ rs1 ++ 5#3 ++ rd ++ 0x03#7) = .ok (.lhu rd rs1 off) ∧
    decode (off ++ rs1 ++ 2#3 ++ rd ++ 0x03#7) = .ok (.lw rd rs1 off) ∧
    (s.pma (effectiveAddress s rs1 off) 1 .load = true → HoldsBytes s (effectiveAddress s rs1 off) 1 b →
      CompletesWriting (.lb rd rs1 off) s rd (fun v => v.toInt = (b 0).toInt) (s.pc + 4) ∧
      CompletesWriting (.lbu rd rs1 off) s rd (fun v => v.toNat = (b 0).toNat) (s.pc + 4)) ∧
    ((effectiveAddress s rs1 off).toNat % 2 = 0 → s.pma (effectiveAddress s rs1 off) 2 .load = true →
      HoldsBytes s (effectiveAddress s rs1 off) 2 b →
      CompletesWriting (.lh rd rs1 off) s rd (fun v => v.toInt = (b 1 ++ b 0).toInt) (s.pc + 4) ∧
      CompletesWriting (.lhu rd rs1 off) s rd (fun v => v.toNat = (b 1 ++ b 0).toNat) (s.pc + 4)) ∧
    ((effectiveAddress s rs1 off).toNat % 4 = 0 → s.pma (effectiveAddress s rs1 off) 4 .load = true →
      HoldsBytes s (effectiveAddress s rs1 off) 4 b →
      CompletesWriting (.lw rd rs1 off) s rd (fun v => v.toNat = (b 3 ++ b 2 ++ b 1 ++ b 0).toNat) (s.pc + 4))

/-- 60_exceptions.md R405, R406, 20_memory.md R90, R92: a misaligned load takes exception 4 whatever the platform
answers, an aligned one that the platform refuses exception 5; the pc of the load is saved and `rd` is not written.
The spec's D12, D13 and D14. That the counters stand still is the model's choice (log entry 8). -/
def Obligations.MisalignedAndRefusedLoadsTrap : Prop :=
  ∀ (rd rs1 : Reg) (off : BitVec 12) (s : State),
    ((effectiveAddress s rs1 off).toNat % 2 ≠ 0 →
      Traps (.lh rd rs1 off) s 4 s.pc ∧ Traps (.lhu rd rs1 off) s 4 s.pc) ∧
    ((effectiveAddress s rs1 off).toNat % 4 ≠ 0 → Traps (.lw rd rs1 off) s 4 s.pc) ∧
    (s.pma (effectiveAddress s rs1 off) 1 .load = false →
      Traps (.lb rd rs1 off) s 5 s.pc ∧ Traps (.lbu rd rs1 off) s 5 s.pc) ∧
    ((effectiveAddress s rs1 off).toNat % 2 = 0 → s.pma (effectiveAddress s rs1 off) 2 .load = false →
      Traps (.lh rd rs1 off) s 5 s.pc ∧ Traps (.lhu rd rs1 off) s 5 s.pc) ∧
    ((effectiveAddress s rs1 off).toNat % 4 = 0 → s.pma (effectiveAddress s rs1 off) 4 .load = false →
      Traps (.lw rd rs1 off) s 5 s.pc)

/-- 10_state.md R66: a load, aligned and allowed, of a byte that holds no value stops the model. The spec's D29; log
entry 5. -/
def Obligations.LoadOfNoValueStops : Prop :=
  ∀ (rd rs1 : Reg) (off : BitVec 12) (s : State),
    (s.pma (effectiveAddress s rs1 off) 1 .load = true →
      s.mem.byteAt (byteAddr (effectiveAddress s rs1 off) 0) = none →
      (∃ a, exec (.lb rd rs1 off) s = .fault (.loadOfUnwrittenByte a)) ∧
      ∃ a, exec (.lbu rd rs1 off) s = .fault (.loadOfUnwrittenByte a)) ∧
    ((effectiveAddress s rs1 off).toNat % 2 = 0 → s.pma (effectiveAddress s rs1 off) 2 .load = true →
      (∃ k < 2, s.mem.byteAt (byteAddr (effectiveAddress s rs1 off) k) = none) →
      (∃ a, exec (.lh rd rs1 off) s = .fault (.loadOfUnwrittenByte a)) ∧
      ∃ a, exec (.lhu rd rs1 off) s = .fault (.loadOfUnwrittenByte a)) ∧
    ((effectiveAddress s rs1 off).toNat % 4 = 0 → s.pma (effectiveAddress s rs1 off) 4 .load = true →
      (∃ k < 4, s.mem.byteAt (byteAddr (effectiveAddress s rs1 off) k) = none) →
      ∃ a, exec (.lw rd rs1 off) s = .fault (.loadOfUnwrittenByte a))

/-- 44_memory_ops.md R251, R257, R258, 20_memory.md R87: the stores, when aligned and allowed: exactly their bytes are
stored, least significant first, and become stale, each recorded with what it held before (the record is the model's,
log entry 10). The byte order is the spec's D1, the hidden set its D28. That the counters stand still is the model's
choice (log entry 8). -/
def Obligations.StoresComplete : Prop :=
  ∀ (rs2 rs1 : Reg) (off : BitVec 12) (s : State),
    decode (encodeS off rs2 rs1 0#3 0x23#7) = .ok (.sb rs2 rs1 off) ∧
    decode (encodeS off rs2 rs1 1#3 0x23#7) = .ok (.sh rs2 rs1 off) ∧
    decode (encodeS off rs2 rs1 2#3 0x23#7) = .ok (.sw rs2 rs1 off) ∧
    (s.pma (effectiveAddress s rs1 off) 1 .store = true →
      CompletesStoring (.sb rs2 rs1 off) s (effectiveAddress s rs1 off) 1 (s.readX rs2)) ∧
    ((effectiveAddress s rs1 off).toNat % 2 = 0 → s.pma (effectiveAddress s rs1 off) 2 .store = true →
      CompletesStoring (.sh rs2 rs1 off) s (effectiveAddress s rs1 off) 2 (s.readX rs2)) ∧
    ((effectiveAddress s rs1 off).toNat % 4 = 0 → s.pma (effectiveAddress s rs1 off) 4 .store = true →
      CompletesStoring (.sw rs2 rs1 off) s (effectiveAddress s rs1 off) 4 (s.readX rs2))

/-- 60_exceptions.md R407, R408, 20_memory.md R90, R92: a misaligned store takes exception 6 whatever the platform
answers, an aligned one that the platform refuses exception 7; no byte of memory is written. The spec's D12, D13 and
D14. That the counters stand still is the model's choice (log entry 8). -/
def Obligations.MisalignedAndRefusedStoresTrap : Prop :=
  ∀ (rs2 rs1 : Reg) (off : BitVec 12) (s : State),
    ((effectiveAddress s rs1 off).toNat % 2 ≠ 0 → Traps (.sh rs2 rs1 off) s 6 s.pc) ∧
    ((effectiveAddress s rs1 off).toNat % 4 ≠ 0 → Traps (.sw rs2 rs1 off) s 6 s.pc) ∧
    (s.pma (effectiveAddress s rs1 off) 1 .store = false → Traps (.sb rs2 rs1 off) s 7 s.pc) ∧
    ((effectiveAddress s rs1 off).toNat % 2 = 0 → s.pma (effectiveAddress s rs1 off) 2 .store = false →
      Traps (.sh rs2 rs1 off) s 7 s.pc) ∧
    ((effectiveAddress s rs1 off).toNat % 4 = 0 → s.pma (effectiveAddress s rs1 off) 4 .store = false →
      Traps (.sw rs2 rs1 off) s 7 s.pc)

/-- 20_memory.md R89: after a store of a word, a read of one, two or four bytes inside it sees the bytes the store
put there. The spec derives it from R86 and R87 (its D1). -/
def Obligations.NarrowReadsSeeTheWideStore : Prop :=
  ∀ (rs2 rs1 : Reg) (off : BitVec 12) (s t : State),
    (effectiveAddress s rs1 off).toNat % 4 = 0 → s.pma (effectiveAddress s rs1 off) 4 .store = true →
    exec (.sw rs2 rs1 off) s = .next t →
    (∀ k < 4, memRead t.mem (effectiveAddress s rs1 off + BitVec.ofNat 32 k) 1 =
      .ok (BitVec.ofNat 32 ((s.readX rs2).toNat / 2 ^ (8 * k) % 2 ^ 8))) ∧
    (∀ k < 2, memRead t.mem (effectiveAddress s rs1 off + BitVec.ofNat 32 (2 * k)) 2 =
      .ok (BitVec.ofNat 32 ((s.readX rs2).toNat / 2 ^ (16 * k) % 2 ^ 16))) ∧
    memRead t.mem (effectiveAddress s rs1 off) 4 = .ok (s.readX rs2)

/-! ## Synchronization -/

/-- 46_sync.md R280, 20_memory.md R106: FENCEI, in every word that has its opcode and funct3, empties `stale` and does
nothing else; every later fetch sees memory. The spec's D9 and D28. That the counters stand still is the model's
choice (log entry 8). -/
def Obligations.FenceiEmptiesStale : Prop :=
  (∀ w : Word, opcodeOf w = 0x0F#7 → funct3Of w = 1#3 → decode w = .ok .fencei) ∧
  ∀ s : State, ∃ t, exec .fencei s = .next t ∧ t.pc = s.pc + 4 ∧ (∀ a, ¬ t.isStale a) ∧
    (∀ a i, t.fetchByte a i = s.mem.byteAt a) ∧ RegsKept s t ∧ SystemKept s t ∧ BytesKept s t ∧
    t.pmaRefused = s.pmaRefused ∧ t.draws = s.draws

/-- 46_sync.md R281, 20_memory.md R103: FENCE, in every word that has its opcode and funct3, changes the pc alone. The
spec's D9 and D27. That the counters stand still is the model's choice (log entry 8). -/
def Obligations.FenceChangesThePcAlone : Prop :=
  (∀ w : Word, opcodeOf w = 0x0F#7 → funct3Of w = 0#3 →
    decode w = .ok (.fence (w.extractLsb' 24 4) (w.extractLsb' 20 4))) ∧
  ∀ (pred succ : BitVec 4) (s : State), CompletesJumping (.fence pred succ) s (s.pc + 4)

/-! ## System operations -/

/-- 47_system.md R293, R296 by R298: CSRRW and CSRRWI on a register of class EXACT, STATUS or STORE. The classes and
the order of the steps are the spec's D2 and D22. That the counters stand still is the model's choice (log entry 8).
-/
def Obligations.CsrWritesComplete : Prop :=
  ∀ (rd rs1 : Reg) (uimm : BitVec 5) (c : Csr) (s : State), c.holdsWrites →
    decode (c.addr ++ rs1 ++ 1#3 ++ rd ++ 0x73#7) = .ok (.csrrw rd c.addr rs1) ∧
    decode (c.addr ++ uimm ++ 5#3 ++ rd ++ 0x73#7) = .ok (.csrrwi rd c.addr uimm) ∧
    CompletesCsr (.csrrw rd c.addr rs1) s rd c (s.csrValue c) (s.readX rs1) ∧
    CompletesCsr (.csrrwi rd c.addr uimm) s rd c (s.csrValue c) (BitVec.ofNat 32 uimm.toNat)

/-- 47_system.md R294, R297 by R298: CSRRS and CSRRSI on a register of class EXACT, STATUS or STORE. The classes and
the order of the steps are the spec's D2 and D22. That the counters stand still is the model's choice (log entry 8).
-/
def Obligations.CsrSetsComplete : Prop :=
  ∀ (rd rs1 : Reg) (uimm : BitVec 5) (c : Csr) (s : State), c.holdsWrites →
    decode (c.addr ++ rs1 ++ 2#3 ++ rd ++ 0x73#7) = .ok (.csrrs rd c.addr rs1) ∧
    decode (c.addr ++ uimm ++ 6#3 ++ rd ++ 0x73#7) = .ok (.csrrsi rd c.addr uimm) ∧
    CompletesCsr (.csrrs rd c.addr rs1) s rd c (s.csrValue c) (s.csrValue c ||| s.readX rs1) ∧
    CompletesCsr (.csrrsi rd c.addr uimm) s rd c (s.csrValue c) (s.csrValue c ||| BitVec.ofNat 32 uimm.toNat)

/-- 47_system.md R290, R295 by R298: CSRRC and CSRRCI on a register of class EXACT, STATUS or STORE. The classes and
the order of the steps are the spec's D2 and D22. That the counters stand still is the model's choice (log entry 8).
-/
def Obligations.CsrClearsComplete : Prop :=
  ∀ (rd rs1 : Reg) (uimm : BitVec 5) (c : Csr) (s : State), c.holdsWrites →
    decode (c.addr ++ rs1 ++ 3#3 ++ rd ++ 0x73#7) = .ok (.csrrc rd c.addr rs1) ∧
    decode (c.addr ++ uimm ++ 7#3 ++ rd ++ 0x73#7) = .ok (.csrrci rd c.addr uimm) ∧
    CompletesCsr (.csrrc rd c.addr rs1) s rd c (s.csrValue c) (s.csrValue c &&& ~~~ s.readX rs1) ∧
    CompletesCsr (.csrrci rd c.addr uimm) s rd c (s.csrValue c) (s.csrValue c &&& ~~~ BitVec.ofNat 32 uimm.toNat)

/-- 10_state.md R44, R50 to R52 by R298: every CSR instruction on `mcycle`, `minstret` or `mhpmcounter3` to `5`
completes, whatever the old value is; nothing is said of that value. The spec's D24. That only that counter changes, the
other counters standing still, and that it then holds the value computed until it is next read, is the model's choice
(log entry 8, unsafe for the standing still). -/
def Obligations.CounterAccessesComplete : Prop :=
  ∀ (rd rs1 : Reg) (uimm : BitVec 5) (c : Csr) (s : State), c.cls = .counter →
    CompletesCounter (.csrrw rd c.addr rs1) s rd c (fun _ => s.readX rs1) ∧
    CompletesCounter (.csrrs rd c.addr rs1) s rd c (fun old => old ||| s.readX rs1) ∧
    CompletesCounter (.csrrc rd c.addr rs1) s rd c (fun old => old &&& ~~~ s.readX rs1) ∧
    CompletesCounter (.csrrwi rd c.addr uimm) s rd c (fun _ => BitVec.ofNat 32 uimm.toNat) ∧
    CompletesCounter (.csrrsi rd c.addr uimm) s rd c (fun old => old ||| BitVec.ofNat 32 uimm.toNat) ∧
    CompletesCounter (.csrrci rd c.addr uimm) s rd c (fun old => old &&& ~~~ BitVec.ofNat 32 uimm.toNat)

/-- 10_state.md R53: on a read-only counter a set or clear with a zero mask completes and leaves what it read, and
every other CSR instruction is refused by the model. The spec's D23 and D24; log entry 11. That the counters stand
still is the model's choice (log entry 8). -/
def Obligations.ReadOnlyCounterAccesses : Prop :=
  ∀ (rd rs1 : Reg) (uimm : BitVec 5) (c : Csr) (s : State), c.cls = .roCounter →
    (s.readX rs1 = 0#32 → CompletesCounter (.csrrs rd c.addr rs1) s rd c (fun old => old) ∧
      CompletesCounter (.csrrc rd c.addr rs1) s rd c (fun old => old)) ∧
    (uimm = 0#5 → CompletesCounter (.csrrsi rd c.addr uimm) s rd c (fun old => old) ∧
      CompletesCounter (.csrrci rd c.addr uimm) s rd c (fun old => old)) ∧
    (s.readX rs1 ≠ 0#32 → exec (.csrrs rd c.addr rs1) s = .refused .readOnlyCounterWrite ∧
      exec (.csrrc rd c.addr rs1) s = .refused .readOnlyCounterWrite) ∧
    (uimm ≠ 0#5 → exec (.csrrsi rd c.addr uimm) s = .refused .readOnlyCounterWrite ∧
      exec (.csrrci rd c.addr uimm) s = .refused .readOnlyCounterWrite) ∧
    exec (.csrrw rd c.addr rs1) s = .refused .readOnlyCounterWrite ∧
    exec (.csrrwi rd c.addr uimm) s = .refused .readOnlyCounterWrite

/-- 10_state.md R44, class IDENT, 47_system.md R298 step 4: each of the six CSR instructions on `misa` returns it when
it would not change it, and is refused when it would. The spec's D32; log entry 11. That the counters stand still is
the model's choice (log entry 8). -/
def Obligations.MisaAccesses : Prop :=
  ∀ (rd rs1 : Reg) (uimm : BitVec 5) (s : State),
    AccessesMisa (.csrrw rd 0x301#12 rs1) s rd (s.readX rs1) ∧
    AccessesMisa (.csrrs rd 0x301#12 rs1) s rd (s.csrValue .misa ||| s.readX rs1) ∧
    AccessesMisa (.csrrc rd 0x301#12 rs1) s rd (s.csrValue .misa &&& ~~~ s.readX rs1) ∧
    AccessesMisa (.csrrwi rd 0x301#12 uimm) s rd (BitVec.ofNat 32 uimm.toNat) ∧
    AccessesMisa (.csrrsi rd 0x301#12 uimm) s rd (s.csrValue .misa ||| BitVec.ofNat 32 uimm.toNat) ∧
    AccessesMisa (.csrrci rd 0x301#12 uimm) s rd (s.csrValue .misa &&& ~~~ BitVec.ofNat 32 uimm.toNat)

/-- 10_state.md R43, R44, the whole CSR list as literals: each of the 38 addresses is its register, of its class. R41,
30_encoding.md R146: a CSR instruction whose address is none of the 38 takes exception 2, with the pc saved, and
neither reads nor writes anything. The classes are the spec's D22 to D24 and D32, the exception its D10. That the
counters stand still is the model's choice (log entry 8). -/
def Obligations.UnlistedCsrTraps : Prop :=
  (∀ e ∈ ([
      (0x300#12, .mstatus, .status), (0x301#12, .misa, .ident), (0x302#12, .medeleg, .store),
      (0x303#12, .mideleg, .store), (0x304#12, .mie, .store), (0x305#12, .mtvec, .exact),
      (0x306#12, .mcounteren, .store), (0x340#12, .mscratch, .exact), (0x341#12, .mepc, .exact),
      (0x342#12, .mcause, .exact), (0x343#12, .mtval, .exact), (0x344#12, .mip, .store),
      (0x3A0#12, .pmpcfg0, .store), (0x3B0#12, .pmpaddr0, .store), (0x3B1#12, .pmpaddr1, .store),
      (0x3B2#12, .pmpaddr2, .store), (0x3B3#12, .pmpaddr3, .store), (0xB00#12, .mcycle, .counter),
      (0xB02#12, .minstret, .counter), (0xB03#12, .mhpmcounter3, .counter), (0xB04#12, .mhpmcounter4, .counter),
      (0xB05#12, .mhpmcounter5, .counter), (0x323#12, .mhpmevent3, .store), (0x324#12, .mhpmevent4, .store),
      (0x325#12, .mhpmevent5, .store), (0xC00#12, .ucycle, .roCounter), (0xC02#12, .uinstret, .roCounter),
      (0xC80#12, .ucycleh, .roCounter), (0xC82#12, .uinstreth, .roCounter), (0x100#12, .sstatus, .store),
      (0x104#12, .sie, .store), (0x105#12, .stvec, .store), (0x140#12, .sscratch, .exact),
      (0x141#12, .sepc, .store), (0x142#12, .scause, .store), (0x143#12, .stval, .store),
      (0x144#12, .sip, .store), (0x180#12, .satp, .store)] : List (CsrAddr × Csr × CsrClass)),
    csrAt e.1 = some e.2.1 ∧ e.2.1.addr = e.1 ∧ e.2.1.cls = e.2.2) ∧
  ∀ (rd rs1 : Reg) (uimm : BitVec 5) (a : CsrAddr) (s : State),
    a ∉ ([
      0x300#12, 0x301#12, 0x302#12, 0x303#12, 0x304#12, 0x305#12, 0x306#12, 0x340#12, 0x341#12, 0x342#12,
      0x343#12, 0x344#12, 0x3A0#12, 0x3B0#12, 0x3B1#12, 0x3B2#12, 0x3B3#12, 0xB00#12, 0xB02#12, 0xB03#12,
      0xB04#12, 0xB05#12, 0x323#12, 0x324#12, 0x325#12, 0xC00#12, 0xC02#12, 0xC80#12, 0xC82#12, 0x100#12,
      0x104#12, 0x105#12, 0x140#12, 0x141#12, 0x142#12, 0x143#12, 0x144#12, 0x180#12] : List CsrAddr) →
    csrAt a = none ∧ (∀ c : Csr, c.addr ≠ a) ∧
    Traps (.csrrw rd a rs1) s 2 s.pc ∧ Traps (.csrrs rd a rs1) s 2 s.pc ∧ Traps (.csrrc rd a rs1) s 2 s.pc ∧
    Traps (.csrrwi rd a uimm) s 2 s.pc ∧ Traps (.csrrsi rd a uimm) s 2 s.pc ∧ Traps (.csrrci rd a uimm) s 2 s.pc
end

