-- ==== Sys2Proof/Laws/Encoding.lean ====
section
/-! SUPPORT. Reading a field back out of a word built in one of the six formats. -/

namespace Sys2Proof

/-- The low part of a concatenation. -/
theorem extract_append_low {m n : Nat} (a : BitVec m) (b : BitVec n) (lo w : Nat) (h : lo + w ≤ n) :
    (a ++ b).extractLsb' lo w = b.extractLsb' lo w := by
  apply BitVec.eq_of_getLsbD_eq
  intro i hi
  simp only [BitVec.getLsbD_extractLsb', BitVec.getLsbD_append]
  have : lo + i < n := by omega
  simp [this]

/-- The high part of a concatenation. -/
theorem extract_append_high {m n : Nat} (a : BitVec m) (b : BitVec n) (lo w : Nat) (h : n ≤ lo) :
    (a ++ b).extractLsb' lo w = a.extractLsb' (lo - n) w := by
  apply BitVec.eq_of_getLsbD_eq
  intro i hi
  simp only [BitVec.getLsbD_extractLsb', BitVec.getLsbD_append]
  have h1 : ¬ lo + i < n := by omega
  have h2 : lo + i - n = lo - n + i := by omega
  simp [h1, h2]

/-- A whole field. -/
theorem extract_whole {n : Nat} (a : BitVec n) : a.extractLsb' 0 n = a := by
  apply BitVec.eq_of_getLsbD_eq
  intro i hi
  simp [hi]

section R
variable (f7 : BitVec 7) (rs2 rs1 : Reg) (f3 : BitVec 3) (rd : Reg) (op : BitVec 7)
@[simp] theorem opcodeOf_encodeR : opcodeOf (encodeR f7 rs2 rs1 f3 rd op) = op := by
  show (f7 ++ rs2 ++ rs1 ++ f3 ++ rd ++ op).extractLsb' 0 7 = op
  rw [extract_append_low _ _ _ _ (by decide)]
  exact extract_whole _
@[simp] theorem rdOf_encodeR : rdOf (encodeR f7 rs2 rs1 f3 rd op) = rd := by
  show (f7 ++ rs2 ++ rs1 ++ f3 ++ rd ++ op).extractLsb' 7 5 = rd
  rw [extract_append_high _ _ _ _ (by decide), extract_append_low _ _ _ _ (by decide)]
  exact extract_whole _
@[simp] theorem funct3Of_encodeR : funct3Of (encodeR f7 rs2 rs1 f3 rd op) = f3 := by
  show (f7 ++ rs2 ++ rs1 ++ f3 ++ rd ++ op).extractLsb' 12 3 = f3
  rw [extract_append_high _ _ _ _ (by decide), extract_append_high _ _ _ _ (by decide), extract_append_low _ _ _ _ (by decide)]
  exact extract_whole _
@[simp] theorem rs1Of_encodeR : rs1Of (encodeR f7 rs2 rs1 f3 rd op) = rs1 := by
  show (f7 ++ rs2 ++ rs1 ++ f3 ++ rd ++ op).extractLsb' 15 5 = rs1
  rw [extract_append_high _ _ _ _ (by decide), extract_append_high _ _ _ _ (by decide), extract_append_high _ _ _ _ (by decide), extract_append_low _ _ _ _ (by decide)]
  exact extract_whole _
@[simp] theorem rs2Of_encodeR : rs2Of (encodeR f7 rs2 rs1 f3 rd op) = rs2 := by
  show (f7 ++ rs2 ++ rs1 ++ f3 ++ rd ++ op).extractLsb' 20 5 = rs2
  rw [extract_append_high _ _ _ _ (by decide), extract_append_high _ _ _ _ (by decide), extract_append_high _ _ _ _ (by decide), extract_append_high _ _ _ _ (by decide), extract_append_low _ _ _ _ (by decide)]
  exact extract_whole _
@[simp] theorem funct7Of_encodeR : funct7Of (encodeR f7 rs2 rs1 f3 rd op) = f7 := by
  show (f7 ++ rs2 ++ rs1 ++ f3 ++ rd ++ op).extractLsb' 25 7 = f7
  rw [extract_append_high _ _ _ _ (by decide), extract_append_high _ _ _ _ (by decide), extract_append_high _ _ _ _ (by decide), extract_append_high _ _ _ _ (by decide), extract_append_high _ _ _ _ (by decide)]
  exact extract_whole _
end R

section I
variable (imm : BitVec 12) (rs1 : Reg) (f3 : BitVec 3) (rd : Reg) (op : BitVec 7)
@[simp] theorem opcodeOf_encodeI : opcodeOf (encodeI imm rs1 f3 rd op) = op := by
  show (imm ++ rs1 ++ f3 ++ rd ++ op).extractLsb' 0 7 = op
  rw [extract_append_low _ _ _ _ (by decide)]
  exact extract_whole _
@[simp] theorem rdOf_encodeI : rdOf (encodeI imm rs1 f3 rd op) = rd := by
  show (imm ++ rs1 ++ f3 ++ rd ++ op).extractLsb' 7 5 = rd
  rw [extract_append_high _ _ _ _ (by decide), extract_append_low _ _ _ _ (by decide)]
  exact extract_whole _
@[simp] theorem funct3Of_encodeI : funct3Of (encodeI imm rs1 f3 rd op) = f3 := by
  show (imm ++ rs1 ++ f3 ++ rd ++ op).extractLsb' 12 3 = f3
  rw [extract_append_high _ _ _ _ (by decide), extract_append_high _ _ _ _ (by decide), extract_append_low _ _ _ _ (by decide)]
  exact extract_whole _
@[simp] theorem rs1Of_encodeI : rs1Of (encodeI imm rs1 f3 rd op) = rs1 := by
  show (imm ++ rs1 ++ f3 ++ rd ++ op).extractLsb' 15 5 = rs1
  rw [extract_append_high _ _ _ _ (by decide), extract_append_high _ _ _ _ (by decide), extract_append_high _ _ _ _ (by decide), extract_append_low _ _ _ _ (by decide)]
  exact extract_whole _
@[simp] theorem imm12Of_encodeI : imm12Of (encodeI imm rs1 f3 rd op) = imm := by
  show (imm ++ rs1 ++ f3 ++ rd ++ op).extractLsb' 20 12 = imm
  rw [extract_append_high _ _ _ _ (by decide), extract_append_high _ _ _ _ (by decide), extract_append_high _ _ _ _ (by decide), extract_append_high _ _ _ _ (by decide)]
  exact extract_whole _
end I

section S
variable (imm : BitVec 12) (rs2 rs1 : Reg) (f3 : BitVec 3) (op : BitVec 7)
@[simp] theorem opcodeOf_encodeS : opcodeOf (encodeS imm rs2 rs1 f3 op) = op := by
  show (imm.extractLsb' 5 7 ++ rs2 ++ rs1 ++ f3 ++ imm.extractLsb' 0 5 ++ op).extractLsb' 0 7 = op
  rw [extract_append_low _ _ _ _ (by decide)]
  exact extract_whole _
@[simp] theorem funct3Of_encodeS : funct3Of (encodeS imm rs2 rs1 f3 op) = f3 := by
  show (imm.extractLsb' 5 7 ++ rs2 ++ rs1 ++ f3 ++ imm.extractLsb' 0 5 ++ op).extractLsb' 12 3 = f3
  rw [extract_append_high _ _ _ _ (by decide), extract_append_high _ _ _ _ (by decide), extract_append_low _ _ _ _ (by decide)]
  exact extract_whole _
@[simp] theorem rs1Of_encodeS : rs1Of (encodeS imm rs2 rs1 f3 op) = rs1 := by
  show (imm.extractLsb' 5 7 ++ rs2 ++ rs1 ++ f3 ++ imm.extractLsb' 0 5 ++ op).extractLsb' 15 5 = rs1
  rw [extract_append_high _ _ _ _ (by decide), extract_append_high _ _ _ _ (by decide), extract_append_high _ _ _ _ (by decide), extract_append_low _ _ _ _ (by decide)]
  exact extract_whole _
@[simp] theorem rs2Of_encodeS : rs2Of (encodeS imm rs2 rs1 f3 op) = rs2 := by
  show (imm.extractLsb' 5 7 ++ rs2 ++ rs1 ++ f3 ++ imm.extractLsb' 0 5 ++ op).extractLsb' 20 5 = rs2
  rw [extract_append_high _ _ _ _ (by decide), extract_append_high _ _ _ _ (by decide), extract_append_high _ _ _ _ (by decide), extract_append_high _ _ _ _ (by decide), extract_append_low _ _ _ _ (by decide)]
  exact extract_whole _
end S

section B
variable (imm : BitVec 13) (rs2 rs1 : Reg) (f3 : BitVec 3) (op : BitVec 7)
@[simp] theorem opcodeOf_encodeB : opcodeOf (encodeB imm rs2 rs1 f3 op) = op := by
  show (imm.extractLsb' 12 1 ++ imm.extractLsb' 5 6 ++ rs2 ++ rs1 ++ f3 ++ imm.extractLsb' 1 4 ++ imm.extractLsb' 11 1 ++ op).extractLsb' 0 7 = op
  rw [extract_append_low _ _ _ _ (by decide)]
  exact extract_whole _
@[simp] theorem funct3Of_encodeB : funct3Of (encodeB imm rs2 rs1 f3 op) = f3 := by
  show (imm.extractLsb' 12 1 ++ imm.extractLsb' 5 6 ++ rs2 ++ rs1 ++ f3 ++ imm.extractLsb' 1 4 ++ imm.extractLsb' 11 1 ++ op).extractLsb' 12 3 = f3
  rw [extract_append_high _ _ _ _ (by decide), extract_append_high _ _ _ _ (by decide), extract_append_high _ _ _ _ (by decide), extract_append_low _ _ _ _ (by decide)]
  exact extract_whole _
@[simp] theorem rs1Of_encodeB : rs1Of (encodeB imm rs2 rs1 f3 op) = rs1 := by
  show (imm.extractLsb' 12 1 ++ imm.extractLsb' 5 6 ++ rs2 ++ rs1 ++ f3 ++ imm.extractLsb' 1 4 ++ imm.extractLsb' 11 1 ++ op).extractLsb' 15 5 = rs1
  rw [extract_append_high _ _ _ _ (by decide), extract_append_high _ _ _ _ (by decide), extract_append_high _ _ _ _ (by decide), extract_append_high _ _ _ _ (by decide), extract_append_low _ _ _ _ (by decide)]
  exact extract_whole _
@[simp] theorem rs2Of_encodeB : rs2Of (encodeB imm rs2 rs1 f3 op) = rs2 := by
  show (imm.extractLsb' 12 1 ++ imm.extractLsb' 5 6 ++ rs2 ++ rs1 ++ f3 ++ imm.extractLsb' 1 4 ++ imm.extractLsb' 11 1 ++ op).extractLsb' 20 5 = rs2
  rw [extract_append_high _ _ _ _ (by decide), extract_append_high _ _ _ _ (by decide), extract_append_high _ _ _ _ (by decide), extract_append_high _ _ _ _ (by decide), extract_append_high _ _ _ _ (by decide), extract_append_low _ _ _ _ (by decide)]
  exact extract_whole _
end B

section U
variable (imm : BitVec 20) (rd : Reg) (op : BitVec 7)
@[simp] theorem opcodeOf_encodeU : opcodeOf (encodeU imm rd op) = op := by
  show (imm ++ rd ++ op).extractLsb' 0 7 = op
  rw [extract_append_low _ _ _ _ (by decide)]
  exact extract_whole _
@[simp] theorem rdOf_encodeU : rdOf (encodeU imm rd op) = rd := by
  show (imm ++ rd ++ op).extractLsb' 7 5 = rd
  rw [extract_append_high _ _ _ _ (by decide), extract_append_low _ _ _ _ (by decide)]
  exact extract_whole _
@[simp] theorem imm20Of_encodeU : imm20Of (encodeU imm rd op) = imm := by
  show (imm ++ rd ++ op).extractLsb' 12 20 = imm
  rw [extract_append_high _ _ _ _ (by decide), extract_append_high _ _ _ _ (by decide)]
  exact extract_whole _
end U

section J
variable (imm : BitVec 21) (rd : Reg) (op : BitVec 7)
@[simp] theorem opcodeOf_encodeJ : opcodeOf (encodeJ imm rd op) = op := by
  show (imm.extractLsb' 20 1 ++ imm.extractLsb' 1 10 ++ imm.extractLsb' 11 1 ++ imm.extractLsb' 12 8 ++ rd ++ op).extractLsb' 0 7 = op
  rw [extract_append_low _ _ _ _ (by decide)]
  exact extract_whole _
@[simp] theorem rdOf_encodeJ : rdOf (encodeJ imm rd op) = rd := by
  show (imm.extractLsb' 20 1 ++ imm.extractLsb' 1 10 ++ imm.extractLsb' 11 1 ++ imm.extractLsb' 12 8 ++ rd ++ op).extractLsb' 7 5 = rd
  rw [extract_append_high _ _ _ _ (by decide), extract_append_low _ _ _ _ (by decide)]
  exact extract_whole _
end J

/-- The store offset is put together from its two fields (R123, R128). -/
@[simp] theorem storeOffsetOf_encodeS (imm : BitVec 12) (rs2 rs1 : Reg) (f3 : BitVec 3) (op : BitVec 7) :
    storeOffsetOf (encodeS imm rs2 rs1 f3 op) = imm := by
  have h1 : (encodeS imm rs2 rs1 f3 op).extractLsb' 25 7 = imm.extractLsb' 5 7 := by
    show (imm.extractLsb' 5 7 ++ rs2 ++ rs1 ++ f3 ++ imm.extractLsb' 0 5 ++ op).extractLsb' 25 7 = _
    repeat rw [extract_append_high _ _ _ _ (by decide)]
    exact extract_whole _
  have h2 : (encodeS imm rs2 rs1 f3 op).extractLsb' 7 5 = imm.extractLsb' 0 5 := by
    show (imm.extractLsb' 5 7 ++ rs2 ++ rs1 ++ f3 ++ imm.extractLsb' 0 5 ++ op).extractLsb' 7 5 = _
    rw [extract_append_high _ _ _ _ (by decide), extract_append_low _ _ _ _ (by decide)]
    exact extract_whole _
  unfold storeOffsetOf
  rw [h1, h2]
  apply BitVec.eq_of_getLsbD_eq
  intro i hi
  simp only [BitVec.getLsbD_append, BitVec.getLsbD_extractLsb']
  by_cases h : i < 5
  · simp [h]
  · have : i - 5 < 7 := by omega
    have h' : 5 + (i-5) = i := by omega
    simp [h, this, h']

/-- The branch offset is put together from its four fields, bit 0 being 0 (R124, R129). -/
theorem branchOffsetOf_encodeB (imm : BitVec 13) (rs2 rs1 : Reg) (f3 : BitVec 3) (op : BitVec 7) (h0 : imm.getLsbD 0 = false) :
    branchOffsetOf (encodeB imm rs2 rs1 f3 op) = imm := by
  have h1 : (encodeB imm rs2 rs1 f3 op).extractLsb' 31 1 = imm.extractLsb' 12 1 := by
    show (imm.extractLsb' 12 1 ++ imm.extractLsb' 5 6 ++ rs2 ++ rs1 ++ f3 ++ imm.extractLsb' 1 4 ++ imm.extractLsb' 11 1 ++ op).extractLsb' 31 1 = _
    repeat rw [extract_append_high _ _ _ _ (by decide)]
    exact extract_whole _
  have h2 : (encodeB imm rs2 rs1 f3 op).extractLsb' 25 6 = imm.extractLsb' 5 6 := by
    show (imm.extractLsb' 12 1 ++ imm.extractLsb' 5 6 ++ rs2 ++ rs1 ++ f3 ++ imm.extractLsb' 1 4 ++ imm.extractLsb' 11 1 ++ op).extractLsb' 25 6 = _
    rw [extract_append_high _ _ _ _ (by decide), extract_append_high _ _ _ _ (by decide), extract_append_high _ _ _ _ (by decide), extract_append_high _ _ _ _ (by decide), extract_append_high _ _ _ _ (by decide), extract_append_high _ _ _ _ (by decide), extract_append_low _ _ _ _ (by decide)]
    exact extract_whole _
  have h3 : (encodeB imm rs2 rs1 f3 op).extractLsb' 8 4 = imm.extractLsb' 1 4 := by
    show (imm.extractLsb' 12 1 ++ imm.extractLsb' 5 6 ++ rs2 ++ rs1 ++ f3 ++ imm.extractLsb' 1 4 ++ imm.extractLsb' 11 1 ++ op).extractLsb' 8 4 = _
    rw [extract_append_high _ _ _ _ (by decide), extract_append_high _ _ _ _ (by decide), extract_append_low _ _ _ _ (by decide)]
    exact extract_whole _
  have h4 : (encodeB imm rs2 rs1 f3 op).extractLsb' 7 1 = imm.extractLsb' 11 1 := by
    show (imm.extractLsb' 12 1 ++ imm.extractLsb' 5 6 ++ rs2 ++ rs1 ++ f3 ++ imm.extractLsb' 1 4 ++ imm.extractLsb' 11 1 ++ op).extractLsb' 7 1 = _
    rw [extract_append_high _ _ _ _ (by decide), extract_append_low _ _ _ _ (by decide)]
    exact extract_whole _
  unfold branchOffsetOf
  rw [h1, h2, h3, h4]
  apply BitVec.eq_of_getLsbD_eq
  intro i hi
  simp only [BitVec.getLsbD_append, BitVec.getLsbD_extractLsb']
  have hi' : i < 13 := hi
  clear hi
  interval_cases i <;> first | (simp; done) | simpa using h0

/-- The JAL offset is put together from its four fields, bit 0 being 0 (R126, R131). -/
theorem jumpOffsetOf_encodeJ (imm : BitVec 21) (rd : Reg) (op : BitVec 7) (h0 : imm.getLsbD 0 = false) :
    jumpOffsetOf (encodeJ imm rd op) = imm := by
  have h1 : (encodeJ imm rd op).extractLsb' 31 1 = imm.extractLsb' 20 1 := by
    show (imm.extractLsb' 20 1 ++ imm.extractLsb' 1 10 ++ imm.extractLsb' 11 1 ++ imm.extractLsb' 12 8 ++ rd ++ op).extractLsb' 31 1 = _
    repeat rw [extract_append_high _ _ _ _ (by decide)]
    exact extract_whole _
  have h2 : (encodeJ imm rd op).extractLsb' 21 10 = imm.extractLsb' 1 10 := by
    show (imm.extractLsb' 20 1 ++ imm.extractLsb' 1 10 ++ imm.extractLsb' 11 1 ++ imm.extractLsb' 12 8 ++ rd ++ op).extractLsb' 21 10 = _
    rw [extract_append_high _ _ _ _ (by decide), extract_append_high _ _ _ _ (by decide), extract_append_high _ _ _ _ (by decide), extract_append_high _ _ _ _ (by decide), extract_append_low _ _ _ _ (by decide)]
    exact extract_whole _
  have h3 : (encodeJ imm rd op).extractLsb' 20 1 = imm.extractLsb' 11 1 := by
    show (imm.extractLsb' 20 1 ++ imm.extractLsb' 1 10 ++ imm.extractLsb' 11 1 ++ imm.extractLsb' 12 8 ++ rd ++ op).extractLsb' 20 1 = _
    rw [extract_append_high _ _ _ _ (by decide), extract_append_high _ _ _ _ (by decide), extract_append_high _ _ _ _ (by decide), extract_append_low _ _ _ _ (by decide)]
    exact extract_whole _
  have h4 : (encodeJ imm rd op).extractLsb' 12 8 = imm.extractLsb' 12 8 := by
    show (imm.extractLsb' 20 1 ++ imm.extractLsb' 1 10 ++ imm.extractLsb' 11 1 ++ imm.extractLsb' 12 8 ++ rd ++ op).extractLsb' 12 8 = _
    rw [extract_append_high _ _ _ _ (by decide), extract_append_high _ _ _ _ (by decide), extract_append_low _ _ _ _ (by decide)]
    exact extract_whole _
  unfold jumpOffsetOf
  rw [h1, h2, h3, h4]
  apply BitVec.eq_of_getLsbD_eq
  intro i hi
  simp only [BitVec.getLsbD_append, BitVec.getLsbD_extractLsb']
  have hi' : i < 21 := hi
  clear hi
  interval_cases i <;> first | (simp; done) | simpa using h0

/-- FENCE's two operands (R134). -/
theorem fenceFields_encodeI (p q : BitVec 4) :
    predOf (encodeI (0#4 ++ p ++ q) 0#5 0#3 0#5 0x0F#7) = p ∧
    succOf (encodeI (0#4 ++ p ++ q) 0#5 0#3 0#5 0x0F#7) = q := by
  constructor
  · show ((0#4 ++ p ++ q) ++ 0#5 ++ 0#3 ++ 0#5 ++ 0x0F#7).extractLsb' 24 4 = p
    rw [extract_append_high _ _ _ _ (by decide), extract_append_high _ _ _ _ (by decide), extract_append_high _ _ _ _ (by decide), extract_append_high _ _ _ _ (by decide)]
    rw [extract_append_high _ _ _ _ (by decide), extract_append_low _ _ _ _ (by decide)]
    exact extract_whole _
  · show ((0#4 ++ p ++ q) ++ 0#5 ++ 0#3 ++ 0#5 ++ 0x0F#7).extractLsb' 20 4 = q
    rw [extract_append_high _ _ _ _ (by decide), extract_append_high _ _ _ _ (by decide), extract_append_high _ _ _ _ (by decide), extract_append_high _ _ _ _ (by decide)]
    rw [extract_append_low _ _ _ _ (by decide)]
    exact extract_whole _

end Sys2Proof
end

