-- ==== Sys2Proof/Laws/Memory.lean ====
section
/-! SUPPORT. Memory: reading one byte after a write, and the canonical form, which every memory operation keeps. -/

namespace Sys2Proof.Machine

theorem byteAddr_lt (a : Word) (i : Nat) : byteAddr a i < 2 ^ 32 := (a + BitVec.ofNat 32 i).isLt

theorem Memory.byteAt_setByte (m : Memory) (a b : Nat) (v : Byte) :
    (m.setByte a v).byteAt b = if b = a then some v else m.byteAt b := by
  induction m with
  | nil => simp [Memory.setByte, Memory.byteAt]
  | cons c rest ih =>
    obtain ⟨k, w⟩ := c
    simp only [Memory.setByte]
    split
    · simp [Memory.byteAt]
    · split
      · rename_i h1 h2
        subst h2
        simp only [Memory.byteAt]
        split <;> rfl
      · rename_i h1 h2
        simp only [Memory.byteAt, ih]
        by_cases hb : b = k
        · have : b ≠ a := by omega
          simp [hb, show k ≠ a by omega]
        · simp [hb]

theorem Memory.mem_setByte (m : Memory) (a : Nat) (v : Byte) (c : Host.Cell) (h : c ∈ m.setByte a v) :
    c = (a, v) ∨ c ∈ m := by
  induction m with
  | nil => simpa [Memory.setByte] using h
  | cons d rest ih =>
    obtain ⟨k, w⟩ := d
    simp only [Memory.setByte] at h
    split at h
    · simpa using h
    · split at h
      · rcases List.mem_cons.mp h with h | h
        · exact .inl h
        · exact .inr (List.mem_cons_of_mem _ h)
      · rcases List.mem_cons.mp h with h | h
        · exact .inr (h ▸ List.mem_cons_self)
        · rcases ih h with h | h
          · exact .inl h
          · exact .inr (List.mem_cons_of_mem _ h)

/-- Writing one byte keeps the canonical form. -/
theorem Memory.wf_setByte (m : Memory) (a : Nat) (v : Byte) (ha : a < 2 ^ 32) (h : m.wf) : (m.setByte a v).wf := by
  refine ⟨?_, fun c hc => ?_⟩
  · obtain ⟨hp, -⟩ := h
    induction m with
    | nil => simp [Memory.setByte]
    | cons d rest ih =>
      obtain ⟨k, w⟩ := d
      rw [List.pairwise_cons] at hp
      simp only [Memory.setByte]
      split
      · rename_i h1
        refine List.pairwise_cons.mpr ⟨fun c hc => ?_, List.pairwise_cons.mpr hp⟩
        rcases List.mem_cons.mp hc with hc | hc
        · subst hc; exact h1
        · exact lt_trans h1 (hp.1 c hc)
      · split
        · rename_i h1 h2
          subst h2
          exact List.pairwise_cons.mpr ⟨hp.1, hp.2⟩
        · rename_i h1 h2
          refine List.pairwise_cons.mpr ⟨fun c hc => ?_, ih hp.2⟩
          rcases Memory.mem_setByte rest a v c hc with hc | hc
          · subst hc; show k < a; omega
          · exact hp.1 c hc
  · rcases Memory.mem_setByte m a v c hc with hc | hc
    · subst hc; exact ha
    · exact h.2 c hc

/-- Writing the bytes of a datum keeps the canonical form. -/
theorem writeBytes_wf (m : Memory) (a v : Word) (n : Nat) (h : m.wf) : (writeBytes m a v n).wf := by
  induction n with
  | zero => exact h
  | succ n ih => exact Memory.wf_setByte _ _ _ (byteAddr_lt a n) ih

/-- The bytes outside a datum are unchanged by writing it. -/
theorem writeBytes_byteAt_outside (m : Memory) (a v : Word) (n b : Nat) (h : ∀ i < n, b ≠ byteAddr a i) :
    (writeBytes m a v n).byteAt b = m.byteAt b := by
  induction n with
  | zero => rfl
  | succ n ih =>
    rw [writeBytes, Memory.byteAt_setByte, if_neg (h n (Nat.lt_succ_self n))]
    exact ih fun i hi => h i (Nat.lt_succ_of_lt hi)

/-- Different bytes of a datum lie at different addresses. -/
theorem byteAddr_injective (a : Word) {i j : Nat} (hi : i < 2 ^ 32) (hj : j < 2 ^ 32)
    (h : byteAddr a i = byteAddr a j) : i = j := by
  have h1 : a + BitVec.ofNat 32 i = a + BitVec.ofNat 32 j := BitVec.eq_of_toNat_eq h
  have h2 : BitVec.ofNat 32 i = BitVec.ofNat 32 j := by simpa using h1
  have h3 := congrArg BitVec.toNat h2
  rwa [BitVec.toNat_ofNat, BitVec.toNat_ofNat, Nat.mod_eq_of_lt hi, Nat.mod_eq_of_lt hj] at h3

/-- Byte `i` of a datum that was written is byte `i` of its value. -/
theorem writeBytes_byteAt_inside (m : Memory) (a v : Word) (n i : Nat) (hi : i < n) (hn : n ≤ 4) :
    (writeBytes m a v n).byteAt (byteAddr a i) = some (byteOfWord v i) := by
  induction n with
  | zero => omega
  | succ n ih =>
    rw [writeBytes, Memory.byteAt_setByte]
    by_cases h : i = n
    · subst h; simp
    · have hne : byteAddr a i ≠ byteAddr a n := fun e => h (byteAddr_injective a (by omega) (by omega) e)
      rw [if_neg hne]
      exact ih (by omega) (by omega)

/-- A write never takes a value away from a byte. -/
theorem writeBytes_isSome (m : Memory) (a v : Word) (n b : Nat) (h : (m.byteAt b).isSome) :
    ((writeBytes m a v n).byteAt b).isSome := by
  induction n with
  | zero => exact h
  | succ n ih =>
    rw [writeBytes, Memory.byteAt_setByte]
    split
    · rfl
    · exact ih

/-- `MemRead` of one byte (R86). -/
theorem memRead_one (m : Memory) (a : Word) (b : Byte) (h : m.byteAt (byteAddr a 0) = some b) :
    memRead m a 1 = .ok (b.setWidth 32) := by
  simp [memRead, readBytes, h]

/-- `MemRead` of two bytes is little-endian (R86). -/
theorem memRead_two (m : Memory) (a : Word) (b0 b1 : Byte) (h0 : m.byteAt (byteAddr a 0) = some b0)
    (h1 : m.byteAt (byteAddr a 1) = some b1) :
    memRead m a 2 = .ok ((b1.setWidth 32 <<< 8) ||| b0.setWidth 32) := by
  simp [memRead, readBytes, h0, h1]

/-- `MemRead` of four bytes is little-endian (R86). -/
theorem memRead_four (m : Memory) (a : Word) (b0 b1 b2 b3 : Byte) (h0 : m.byteAt (byteAddr a 0) = some b0)
    (h1 : m.byteAt (byteAddr a 1) = some b1) (h2 : m.byteAt (byteAddr a 2) = some b2)
    (h3 : m.byteAt (byteAddr a 3) = some b3) :
    memRead m a 4 =
      .ok ((((((b3.setWidth 32 <<< 8) ||| b2.setWidth 32) <<< 8) ||| b1.setWidth 32) <<< 8) ||| b0.setWidth 32) := by
  simp [memRead, readBytes, h0, h1, h2, h3]

end Sys2Proof.Machine
end

