-- ==== Sys2Proof/Laws/State.lean ====
section
/-! SUPPORT. One lemma per field per update of the state, so that no proof unfolds a record update. -/

namespace Sys2Proof.Machine

@[simp] theorem State.setPc_x (s : State) (v : Word) : (s.setPc v).x = s.x := rfl
@[simp] theorem State.setPc_pc (s : State) (v : Word) : (s.setPc v).pc = v := rfl
@[simp] theorem State.setPc_priv (s : State) (v : Word) : (s.setPc v).priv = s.priv := rfl
@[simp] theorem State.setPc_csr (s : State) (v : Word) : (s.setPc v).csr = s.csr := rfl
@[simp] theorem State.setPc_cycle (s : State) (v : Word) : (s.setPc v).cycle = s.cycle := rfl
@[simp] theorem State.setPc_instret (s : State) (v : Word) : (s.setPc v).instret = s.instret := rfl
@[simp] theorem State.setPc_mem (s : State) (v : Word) : (s.setPc v).mem = s.mem := rfl
@[simp] theorem State.setPc_stale (s : State) (v : Word) : (s.setPc v).stale = s.stale := rfl
@[simp] theorem State.setPc_pmaRefused (s : State) (v : Word) : (s.setPc v).pmaRefused = s.pmaRefused := rfl
@[simp] theorem State.setPc_draws (s : State) (v : Word) : (s.setPc v).draws = s.draws := rfl
@[simp] theorem State.setPc_readX (s : State) (v : Word) (r : Reg) : (s.setPc v).readX r = s.readX r := rfl
@[simp] theorem State.setPc_pma (s : State) (v : Word) (a : Word) (n : Nat) (k : AccessKind) : (s.setPc v).pma a n k = s.pma a n k := rfl
@[simp] theorem State.setPc_csrValue (s : State) (v : Word) (c : Csr) : (s.setPc v).csrValue c = s.csrValue c := by cases c <;> rfl

@[simp] theorem State.setPriv_x (s : State) (p : Priv) : (s.setPriv p).x = s.x := rfl
@[simp] theorem State.setPriv_pc (s : State) (p : Priv) : (s.setPriv p).pc = s.pc := rfl
@[simp] theorem State.setPriv_priv (s : State) (p : Priv) : (s.setPriv p).priv = p := rfl
@[simp] theorem State.setPriv_csr (s : State) (p : Priv) : (s.setPriv p).csr = s.csr := rfl
@[simp] theorem State.setPriv_cycle (s : State) (p : Priv) : (s.setPriv p).cycle = s.cycle := rfl
@[simp] theorem State.setPriv_instret (s : State) (p : Priv) : (s.setPriv p).instret = s.instret := rfl
@[simp] theorem State.setPriv_mem (s : State) (p : Priv) : (s.setPriv p).mem = s.mem := rfl
@[simp] theorem State.setPriv_stale (s : State) (p : Priv) : (s.setPriv p).stale = s.stale := rfl
@[simp] theorem State.setPriv_pmaRefused (s : State) (p : Priv) : (s.setPriv p).pmaRefused = s.pmaRefused := rfl
@[simp] theorem State.setPriv_draws (s : State) (p : Priv) : (s.setPriv p).draws = s.draws := rfl
@[simp] theorem State.setPriv_readX (s : State) (p : Priv) (r : Reg) : (s.setPriv p).readX r = s.readX r := rfl
@[simp] theorem State.setPriv_pma (s : State) (p : Priv) (a : Word) (n : Nat) (k : AccessKind) : (s.setPriv p).pma a n k = s.pma a n k := rfl
@[simp] theorem State.setPriv_csrValue (s : State) (p : Priv) (c : Csr) : (s.setPriv p).csrValue c = s.csrValue c := by cases c <;> rfl

@[simp] theorem State.setCsr_x (s : State) (c : CsrFile) : (s.setCsr c).x = s.x := rfl
@[simp] theorem State.setCsr_pc (s : State) (c : CsrFile) : (s.setCsr c).pc = s.pc := rfl
@[simp] theorem State.setCsr_priv (s : State) (c : CsrFile) : (s.setCsr c).priv = s.priv := rfl
@[simp] theorem State.setCsr_csr (s : State) (c : CsrFile) : (s.setCsr c).csr = c := rfl
@[simp] theorem State.setCsr_cycle (s : State) (c : CsrFile) : (s.setCsr c).cycle = s.cycle := rfl
@[simp] theorem State.setCsr_instret (s : State) (c : CsrFile) : (s.setCsr c).instret = s.instret := rfl
@[simp] theorem State.setCsr_mem (s : State) (c : CsrFile) : (s.setCsr c).mem = s.mem := rfl
@[simp] theorem State.setCsr_stale (s : State) (c : CsrFile) : (s.setCsr c).stale = s.stale := rfl
@[simp] theorem State.setCsr_pmaRefused (s : State) (c : CsrFile) : (s.setCsr c).pmaRefused = s.pmaRefused := rfl
@[simp] theorem State.setCsr_draws (s : State) (c : CsrFile) : (s.setCsr c).draws = s.draws := rfl
@[simp] theorem State.setCsr_readX (s : State) (c : CsrFile) (r : Reg) : (s.setCsr c).readX r = s.readX r := rfl
@[simp] theorem State.setCsr_pma (s : State) (c : CsrFile) (a : Word) (n : Nat) (k : AccessKind) : (s.setCsr c).pma a n k = s.pma a n k := rfl

@[simp] theorem State.setCycle_x (s : State) (v : BitVec 64) : (s.setCycle v).x = s.x := rfl
@[simp] theorem State.setCycle_pc (s : State) (v : BitVec 64) : (s.setCycle v).pc = s.pc := rfl
@[simp] theorem State.setCycle_priv (s : State) (v : BitVec 64) : (s.setCycle v).priv = s.priv := rfl
@[simp] theorem State.setCycle_csr (s : State) (v : BitVec 64) : (s.setCycle v).csr = s.csr := rfl
@[simp] theorem State.setCycle_cycle (s : State) (v : BitVec 64) : (s.setCycle v).cycle = v := rfl
@[simp] theorem State.setCycle_instret (s : State) (v : BitVec 64) : (s.setCycle v).instret = s.instret := rfl
@[simp] theorem State.setCycle_mem (s : State) (v : BitVec 64) : (s.setCycle v).mem = s.mem := rfl
@[simp] theorem State.setCycle_stale (s : State) (v : BitVec 64) : (s.setCycle v).stale = s.stale := rfl
@[simp] theorem State.setCycle_pmaRefused (s : State) (v : BitVec 64) : (s.setCycle v).pmaRefused = s.pmaRefused := rfl
@[simp] theorem State.setCycle_draws (s : State) (v : BitVec 64) : (s.setCycle v).draws = s.draws := rfl
@[simp] theorem State.setCycle_readX (s : State) (v : BitVec 64) (r : Reg) : (s.setCycle v).readX r = s.readX r := rfl
@[simp] theorem State.setCycle_pma (s : State) (v : BitVec 64) (a : Word) (n : Nat) (k : AccessKind) : (s.setCycle v).pma a n k = s.pma a n k := rfl

@[simp] theorem State.setInstret_x (s : State) (v : BitVec 64) : (s.setInstret v).x = s.x := rfl
@[simp] theorem State.setInstret_pc (s : State) (v : BitVec 64) : (s.setInstret v).pc = s.pc := rfl
@[simp] theorem State.setInstret_priv (s : State) (v : BitVec 64) : (s.setInstret v).priv = s.priv := rfl
@[simp] theorem State.setInstret_csr (s : State) (v : BitVec 64) : (s.setInstret v).csr = s.csr := rfl
@[simp] theorem State.setInstret_cycle (s : State) (v : BitVec 64) : (s.setInstret v).cycle = s.cycle := rfl
@[simp] theorem State.setInstret_instret (s : State) (v : BitVec 64) : (s.setInstret v).instret = v := rfl
@[simp] theorem State.setInstret_mem (s : State) (v : BitVec 64) : (s.setInstret v).mem = s.mem := rfl
@[simp] theorem State.setInstret_stale (s : State) (v : BitVec 64) : (s.setInstret v).stale = s.stale := rfl
@[simp] theorem State.setInstret_pmaRefused (s : State) (v : BitVec 64) : (s.setInstret v).pmaRefused = s.pmaRefused := rfl
@[simp] theorem State.setInstret_draws (s : State) (v : BitVec 64) : (s.setInstret v).draws = s.draws := rfl
@[simp] theorem State.setInstret_readX (s : State) (v : BitVec 64) (r : Reg) : (s.setInstret v).readX r = s.readX r := rfl
@[simp] theorem State.setInstret_pma (s : State) (v : BitVec 64) (a : Word) (n : Nat) (k : AccessKind) : (s.setInstret v).pma a n k = s.pma a n k := rfl

@[simp] theorem State.setMem_x (s : State) (m : Memory) : (s.setMem m).x = s.x := rfl
@[simp] theorem State.setMem_pc (s : State) (m : Memory) : (s.setMem m).pc = s.pc := rfl
@[simp] theorem State.setMem_priv (s : State) (m : Memory) : (s.setMem m).priv = s.priv := rfl
@[simp] theorem State.setMem_csr (s : State) (m : Memory) : (s.setMem m).csr = s.csr := rfl
@[simp] theorem State.setMem_cycle (s : State) (m : Memory) : (s.setMem m).cycle = s.cycle := rfl
@[simp] theorem State.setMem_instret (s : State) (m : Memory) : (s.setMem m).instret = s.instret := rfl
@[simp] theorem State.setMem_mem (s : State) (m : Memory) : (s.setMem m).mem = m := rfl
@[simp] theorem State.setMem_stale (s : State) (m : Memory) : (s.setMem m).stale = s.stale := rfl
@[simp] theorem State.setMem_pmaRefused (s : State) (m : Memory) : (s.setMem m).pmaRefused = s.pmaRefused := rfl
@[simp] theorem State.setMem_draws (s : State) (m : Memory) : (s.setMem m).draws = s.draws := rfl
@[simp] theorem State.setMem_readX (s : State) (m : Memory) (r : Reg) : (s.setMem m).readX r = s.readX r := rfl
@[simp] theorem State.setMem_pma (s : State) (m : Memory) (a : Word) (n : Nat) (k : AccessKind) : (s.setMem m).pma a n k = s.pma a n k := rfl
@[simp] theorem State.setMem_csrValue (s : State) (m : Memory) (c : Csr) : (s.setMem m).csrValue c = s.csrValue c := by cases c <;> rfl

@[simp] theorem State.setStale_x (s : State) (l : List (Nat × Option Byte)) : (s.setStale l).x = s.x := rfl
@[simp] theorem State.setStale_pc (s : State) (l : List (Nat × Option Byte)) : (s.setStale l).pc = s.pc := rfl
@[simp] theorem State.setStale_priv (s : State) (l : List (Nat × Option Byte)) : (s.setStale l).priv = s.priv := rfl
@[simp] theorem State.setStale_csr (s : State) (l : List (Nat × Option Byte)) : (s.setStale l).csr = s.csr := rfl
@[simp] theorem State.setStale_cycle (s : State) (l : List (Nat × Option Byte)) : (s.setStale l).cycle = s.cycle := rfl
@[simp] theorem State.setStale_instret (s : State) (l : List (Nat × Option Byte)) : (s.setStale l).instret = s.instret := rfl
@[simp] theorem State.setStale_mem (s : State) (l : List (Nat × Option Byte)) : (s.setStale l).mem = s.mem := rfl
@[simp] theorem State.setStale_stale (s : State) (l : List (Nat × Option Byte)) : (s.setStale l).stale = l := rfl
@[simp] theorem State.setStale_pmaRefused (s : State) (l : List (Nat × Option Byte)) : (s.setStale l).pmaRefused = s.pmaRefused := rfl
@[simp] theorem State.setStale_draws (s : State) (l : List (Nat × Option Byte)) : (s.setStale l).draws = s.draws := rfl
@[simp] theorem State.setStale_readX (s : State) (l : List (Nat × Option Byte)) (r : Reg) : (s.setStale l).readX r = s.readX r := rfl
@[simp] theorem State.setStale_pma (s : State) (l : List (Nat × Option Byte)) (a : Word) (n : Nat) (k : AccessKind) : (s.setStale l).pma a n k = s.pma a n k := rfl
@[simp] theorem State.setStale_csrValue (s : State) (l : List (Nat × Option Byte)) (c : Csr) : (s.setStale l).csrValue c = s.csrValue c := by cases c <;> rfl

@[simp] theorem State.setPma_x (s : State) (l : List PmaHole) : (s.setPma l).x = s.x := rfl
@[simp] theorem State.setPma_pc (s : State) (l : List PmaHole) : (s.setPma l).pc = s.pc := rfl
@[simp] theorem State.setPma_priv (s : State) (l : List PmaHole) : (s.setPma l).priv = s.priv := rfl
@[simp] theorem State.setPma_csr (s : State) (l : List PmaHole) : (s.setPma l).csr = s.csr := rfl
@[simp] theorem State.setPma_cycle (s : State) (l : List PmaHole) : (s.setPma l).cycle = s.cycle := rfl
@[simp] theorem State.setPma_instret (s : State) (l : List PmaHole) : (s.setPma l).instret = s.instret := rfl
@[simp] theorem State.setPma_mem (s : State) (l : List PmaHole) : (s.setPma l).mem = s.mem := rfl
@[simp] theorem State.setPma_stale (s : State) (l : List PmaHole) : (s.setPma l).stale = s.stale := rfl
@[simp] theorem State.setPma_pmaRefused (s : State) (l : List PmaHole) : (s.setPma l).pmaRefused = l := rfl
@[simp] theorem State.setPma_draws (s : State) (l : List PmaHole) : (s.setPma l).draws = s.draws := rfl
@[simp] theorem State.setPma_readX (s : State) (l : List PmaHole) (r : Reg) : (s.setPma l).readX r = s.readX r := rfl
@[simp] theorem State.setPma_csrValue (s : State) (l : List PmaHole) (c : Csr) : (s.setPma l).csrValue c = s.csrValue c := by cases c <;> rfl

@[simp] theorem State.nextDraw_x (s : State) : s.nextDraw.x = s.x := rfl
@[simp] theorem State.nextDraw_pc (s : State) : s.nextDraw.pc = s.pc := rfl
@[simp] theorem State.nextDraw_priv (s : State) : s.nextDraw.priv = s.priv := rfl
@[simp] theorem State.nextDraw_csr (s : State) : s.nextDraw.csr = s.csr := rfl
@[simp] theorem State.nextDraw_cycle (s : State) : s.nextDraw.cycle = s.cycle := rfl
@[simp] theorem State.nextDraw_instret (s : State) : s.nextDraw.instret = s.instret := rfl
@[simp] theorem State.nextDraw_mem (s : State) : s.nextDraw.mem = s.mem := rfl
@[simp] theorem State.nextDraw_stale (s : State) : s.nextDraw.stale = s.stale := rfl
@[simp] theorem State.nextDraw_pmaRefused (s : State) : s.nextDraw.pmaRefused = s.pmaRefused := rfl
@[simp] theorem State.nextDraw_draws (s : State) : s.nextDraw.draws = s.draws + 1 := rfl
@[simp] theorem State.nextDraw_readX (s : State) (r : Reg) : s.nextDraw.readX r = s.readX r := rfl
@[simp] theorem State.nextDraw_pma (s : State) (a : Word) (n : Nat) (k : AccessKind) : s.nextDraw.pma a n k = s.pma a n k := rfl
@[simp] theorem State.nextDraw_csrValue (s : State) (c : Csr) : s.nextDraw.csrValue c = s.csrValue c := by cases c <;> rfl

@[simp] theorem State.advance_x (s : State) : s.advance.x = s.x := rfl
@[simp] theorem State.advance_pc (s : State) : s.advance.pc = s.pc + 4 := rfl
@[simp] theorem State.advance_priv (s : State) : s.advance.priv = s.priv := rfl
@[simp] theorem State.advance_csr (s : State) : s.advance.csr = s.csr := rfl
@[simp] theorem State.advance_cycle (s : State) : s.advance.cycle = s.cycle := rfl
@[simp] theorem State.advance_instret (s : State) : s.advance.instret = s.instret := rfl
@[simp] theorem State.advance_mem (s : State) : s.advance.mem = s.mem := rfl
@[simp] theorem State.advance_stale (s : State) : s.advance.stale = s.stale := rfl
@[simp] theorem State.advance_pmaRefused (s : State) : s.advance.pmaRefused = s.pmaRefused := rfl
@[simp] theorem State.advance_draws (s : State) : s.advance.draws = s.draws := rfl
@[simp] theorem State.advance_readX (s : State) (r : Reg) : s.advance.readX r = s.readX r := rfl
@[simp] theorem State.advance_pma (s : State) (a : Word) (n : Nat) (k : AccessKind) : s.advance.pma a n k = s.pma a n k := rfl
@[simp] theorem State.advance_csrValue (s : State) (c : Csr) : s.advance.csrValue c = s.csrValue c := by cases c <;> rfl

@[simp] theorem State.setX_pc (s : State) (r : Reg) (v : Word) : (s.setX r v).pc = s.pc := by unfold State.setX; split <;> rfl
@[simp] theorem State.setX_priv (s : State) (r : Reg) (v : Word) : (s.setX r v).priv = s.priv := by unfold State.setX; split <;> rfl
@[simp] theorem State.setX_csr (s : State) (r : Reg) (v : Word) : (s.setX r v).csr = s.csr := by unfold State.setX; split <;> rfl
@[simp] theorem State.setX_cycle (s : State) (r : Reg) (v : Word) : (s.setX r v).cycle = s.cycle := by unfold State.setX; split <;> rfl
@[simp] theorem State.setX_instret (s : State) (r : Reg) (v : Word) : (s.setX r v).instret = s.instret := by unfold State.setX; split <;> rfl
@[simp] theorem State.setX_mem (s : State) (r : Reg) (v : Word) : (s.setX r v).mem = s.mem := by unfold State.setX; split <;> rfl
@[simp] theorem State.setX_stale (s : State) (r : Reg) (v : Word) : (s.setX r v).stale = s.stale := by unfold State.setX; split <;> rfl
@[simp] theorem State.setX_pmaRefused (s : State) (r : Reg) (v : Word) : (s.setX r v).pmaRefused = s.pmaRefused := by unfold State.setX; split <;> rfl
@[simp] theorem State.setX_draws (s : State) (r : Reg) (v : Word) : (s.setX r v).draws = s.draws := by unfold State.setX; split <;> rfl
@[simp] theorem State.setX_pma (s : State) (r : Reg) (v : Word) (a : Word) (n : Nat) (k : AccessKind) :
    (s.setX r v).pma a n k = s.pma a n k := by simp [State.pma]
@[simp] theorem State.setX_csrValue (s : State) (r : Reg) (v : Word) (c : Csr) :
    (s.setX r v).csrValue c = s.csrValue c := by cases c <;> simp [State.csrValue]

/-! The registers -/

@[simp] theorem State.readX_zero (s : State) : s.readX 0#5 = 0#32 := rfl

@[simp] theorem State.setX_zero (s : State) (v : Word) : s.setX 0#5 v = s := rfl

theorem Reg.toNat_ne_zero (r : Reg) (h : r ≠ 0#5) : r.toNat ≠ 0 := fun e => h (BitVec.eq_of_toNat_eq e)

@[simp] theorem State.readX_setX_self (s : State) (r : Reg) (v : Word) (h : r ≠ 0#5) : (s.setX r v).readX r = v := by
  simp [State.readX, State.setX, h]

theorem State.readX_setX_of_ne (s : State) (r q : Reg) (v : Word) (h : q ≠ r) :
    (s.setX r v).readX q = s.readX q := by
  unfold State.readX State.setX
  by_cases hq : q = 0#5
  · simp [hq]
  · by_cases hr : r = 0#5
    · simp [hr]
    · have h1 := Reg.toNat_ne_zero q hq
      have h2 := Reg.toNat_ne_zero r hr
      have h3 : q.toNat ≠ r.toNat := fun e => h (BitVec.eq_of_toNat_eq e)
      have h4 : r.toNat - 1 ≠ q.toNat - 1 := by omega
      simp [hq, hr, h4]

end Sys2Proof.Machine
end

