-- ==== Sys2Proof/Laws/Ops.lean ====
section
/-! SUPPORT. What each shared operation can do, said once: if it answers a next state, which one. -/

namespace Sys2Proof.Machine

/-! ## Operations that always answer -/

theorem branchIf_eq (c : Bool) (off : BitVec 13) (s : State) :
    branchIf c off s = .next (s.setPc (if c then branchTarget s off else s.pc + 4)) := by
  cases c <;> rfl

theorem writeBack_eq (rd : Reg) (v : Word) (s : State) : writeBack rd v s = .next ((s.setX rd v).advance) := rfl

theorem linkAndJump_eq (rd : Reg) (target : Word) (s : State) :
    linkAndJump rd target s = .next ((s.setX rd (s.pc + 4)).setPc target) := rfl

/-! ## Trap entry -/

@[simp] theorem takeTrap_readX (k : Cause) (info : Word) (s : State) (r : Reg) :
    (takeTrap k info s).readX r = s.readX r := rfl
@[simp] theorem takeTrap_x (k : Cause) (info : Word) (s : State) : (takeTrap k info s).x = s.x := rfl
@[simp] theorem takeTrap_pc (k : Cause) (info : Word) (s : State) : (takeTrap k info s).pc = s.csr.mtvec := rfl
@[simp] theorem takeTrap_priv (k : Cause) (info : Word) (s : State) : (takeTrap k info s).priv = .machine := rfl
@[simp] theorem takeTrap_cycle (k : Cause) (info : Word) (s : State) : (takeTrap k info s).cycle = s.cycle := rfl
@[simp] theorem takeTrap_instret (k : Cause) (info : Word) (s : State) :
    (takeTrap k info s).instret = s.instret := rfl
@[simp] theorem takeTrap_mem (k : Cause) (info : Word) (s : State) : (takeTrap k info s).mem = s.mem := rfl
@[simp] theorem takeTrap_stale (k : Cause) (info : Word) (s : State) : (takeTrap k info s).stale = s.stale := rfl
@[simp] theorem takeTrap_pmaRefused (k : Cause) (info : Word) (s : State) :
    (takeTrap k info s).pmaRefused = s.pmaRefused := rfl
@[simp] theorem takeTrap_draws (k : Cause) (info : Word) (s : State) :
    (takeTrap k info s).draws = s.draws + 1 := rfl
@[simp] theorem takeTrap_csr (k : Cause) (info : Word) (s : State) :
    (takeTrap k info s).csr = trapCsrs k info s := rfl

theorem raise_eq (k : Cause) (info : Word) (s : State) : raise k info s = .next (takeTrap k info s) := rfl

/-- Replacing a field changes the bits of the field alone. -/
theorem getLsbD_setField (v : Word) (lo width field i : Nat) (h : lo + width ≤ 32) :
    (setField v lo width field).getLsbD i =
      if lo ≤ i ∧ i < lo + width then field.testBit (i - lo) else v.getLsbD i := by
  by_cases hi : i < 32
  · have h32 : i - lo < 32 := by omega
    simp only [setField, BitVec.getLsbD_or, BitVec.getLsbD_and, BitVec.getLsbD_not, BitVec.getLsbD_shiftLeft,
      BitVec.getLsbD_ofNat, Nat.testBit_two_pow_sub_one, Nat.testBit_mod_two_pow, hi, h32]
    by_cases h1 : lo ≤ i
    · by_cases h2 : i < lo + width
      · have h3 : ¬ i < lo := by omega
        have h4 : i - lo < width := by omega
        simp [h1, h2, h3, h4]
      · have h3 : ¬ i < lo := by omega
        have h4 : ¬ i - lo < width := by omega
        simp [h2, h3, h4]
    · have h3 : i < lo := by omega
      simp [h1, h3]
  · have h2 : ¬ i < lo + width := by omega
    have h0 : 32 ≤ i := by omega
    simp [h2, BitVec.getLsbD_of_ge _ _ h0]

/-- `mstatus` on trap entry, bit by bit (R420 steps 4 to 6, R45). -/
theorem getLsbD_mstatusOnTrap (m : Word) (p : Priv) (i : Nat) :
    (mstatusOnTrap m p).getLsbD i =
      if i = 3 then false else if i = 7 then m.getLsbD 3
      else if i = 11 then p == .supervisor || p == .machine
      else if i = 12 then p == .machine else m.getLsbD i := by
  have h : ∀ lo width field j, lo + width ≤ 32 → ∀ v : Word, (setField v lo width field).getLsbD j =
      if lo ≤ j ∧ j < lo + width then field.testBit (j - lo) else v.getLsbD j :=
    fun lo width field j h v => getLsbD_setField v lo width field j h
  show (setField (setField (setField m 11 2 p.encoding) 7 1 (m.getLsbD 3).toNat) 3 1 0).getLsbD i = _
  rw [h 3 1 _ _ (by decide), h 7 1 _ _ (by decide), h 11 2 _ _ (by decide)]
  by_cases h3 : i = 3
  · subst h3; rfl
  · rw [if_neg (by omega), if_neg h3]
    by_cases h7 : i = 7
    · subst h7; cases m.getLsbD 3 <;> rfl
    · rw [if_neg (by omega), if_neg h7]
      by_cases h11 : i = 11
      · subst h11; cases p <;> rfl
      · by_cases h12 : i = 12
        · subst h12; cases p <;> rfl
        · rw [if_neg (by omega), if_neg h11, if_neg h12]
/-! ## The CSR file -/

@[simp] theorem State.csrSet_readX (s : State) (c : Csr) (v : Word) (r : Reg) :
    (s.csrSet c v).readX r = s.readX r := by cases c <;> rfl
@[simp] theorem State.csrSet_pc (s : State) (c : Csr) (v : Word) : (s.csrSet c v).pc = s.pc := by cases c <;> rfl
@[simp] theorem State.csrSet_priv (s : State) (c : Csr) (v : Word) : (s.csrSet c v).priv = s.priv := by
  cases c <;> rfl
@[simp] theorem State.csrSet_mem (s : State) (c : Csr) (v : Word) : (s.csrSet c v).mem = s.mem := by cases c <;> rfl
@[simp] theorem State.csrSet_stale (s : State) (c : Csr) (v : Word) : (s.csrSet c v).stale = s.stale := by
  cases c <;> rfl
@[simp] theorem State.csrSet_pmaRefused (s : State) (c : Csr) (v : Word) :
    (s.csrSet c v).pmaRefused = s.pmaRefused := by cases c <;> rfl
@[simp] theorem State.csrSet_draws (s : State) (c : Csr) (v : Word) : (s.csrSet c v).draws = s.draws := by
  cases c <;> rfl
@[simp] theorem State.csrSet_misa (s : State) (c : Csr) (v : Word) : (s.csrSet c v).csr.misa = s.csr.misa := by
  cases c <;> rfl

@[simp] theorem State.refreshCounter_readX (s : State) (c : Csr) (r : Reg) :
    (s.refreshCounter c).readX r = s.readX r := by cases c <;> rfl
@[simp] theorem State.refreshCounter_pc (s : State) (c : Csr) : (s.refreshCounter c).pc = s.pc := by cases c <;> rfl
@[simp] theorem State.refreshCounter_priv (s : State) (c : Csr) : (s.refreshCounter c).priv = s.priv := by
  cases c <;> rfl
@[simp] theorem State.refreshCounter_mem (s : State) (c : Csr) : (s.refreshCounter c).mem = s.mem := by
  cases c <;> rfl
@[simp] theorem State.refreshCounter_stale (s : State) (c : Csr) : (s.refreshCounter c).stale = s.stale := by
  cases c <;> rfl
@[simp] theorem State.refreshCounter_pmaRefused (s : State) (c : Csr) :
    (s.refreshCounter c).pmaRefused = s.pmaRefused := by cases c <;> rfl
@[simp] theorem State.refreshCounter_misa (s : State) (c : Csr) :
    (s.refreshCounter c).csr.misa = s.csr.misa := by cases c <;> rfl

/-- Only a counter is refreshed by being read. -/
theorem State.refreshCounter_of_cls (s : State) (c : Csr) (h : c.cls ≠ .counter) (h' : c.cls ≠ .roCounter) :
    s.refreshCounter c = s := by
  cases c <;> first | rfl | exact absurd rfl h | exact absurd rfl h'

/-- A CSR of class EXACT, STATUS or STORE holds all 32 bits written to it (R44). -/
theorem State.csrValue_csrSet_self (s : State) (c : Csr) (v : Word) (h : c.cls ≠ .ident) (h' : c.cls ≠ .roCounter)
    (h'' : c.cls ≠ .counter) : (s.csrSet c v).csrValue c = v := by
  cases c <;> first | rfl | exact absurd rfl h | exact absurd rfl h' | exact absurd rfl h''

/-- The CSR that `csrAt` finds has the address asked for. -/
theorem addr_of_csrAt (a : CsrAddr) (c : Csr) (h : csrAt a = some c) : c.addr = a := by
  have := List.find?_some h
  simpa using this

/-- A CSR instruction that answers a next state either took the illegal-instruction exception, its address being
unlisted, or wrote the CSR, wrote `rd` and advanced (R298). -/
theorem csrInstruction_next (w : Word) (op : CsrOp) (rd : Reg) (a : CsrAddr) (src : Word) (s t : State)
    (h : csrInstruction w op rd a src s = .next t) :
    (csrAt a = none ∧ t = takeTrap .illegalInstruction w s) ∨
    ∃ c, csrAt a = some c ∧
      csrWriteRefusal c op src ((s.refreshCounter c).csrValue c) = none ∧
      t = ((((s.refreshCounter c).csrSet c (op.apply ((s.refreshCounter c).csrValue c) src)).setX rd
        ((s.refreshCounter c).csrValue c)).advance) := by
  unfold csrInstruction at h
  split at h
  · rename_i ha
    exact .inl ⟨ha, by cases h; rfl⟩
  · rename_i c ha
    unfold csrModify at h
    simp only at h
    split at h
    · cases h
    · rename_i hr
      exact .inr ⟨c, ha, hr, by cases h; rfl⟩

/-! ## Loads and stores -/

/-- A load that answers a next state trapped or wrote what it read (R259). -/
theorem load_next (n : Nat) (ext : Word → Nat → Word) (rd : Reg) (ea : Word) (s t : State)
    (h : load n ext rd ea s = .next t) :
    (alignedTo ea n = false ∧ t = takeTrap .loadAddressMisaligned ea s) ∨
    (alignedTo ea n = true ∧ s.pma ea n .load = false ∧ t = takeTrap .loadAccessFault ea s) ∨
    (alignedTo ea n = true ∧ s.pma ea n .load = true ∧
      ∃ v, memRead s.mem ea n = .ok v ∧ t = (s.setX rd (ext v n)).advance) := by
  unfold load at h
  split at h
  · rename_i h1
    exact .inl ⟨h1, by cases h; rfl⟩
  · rename_i h1
    split at h
    · rename_i h2
      exact .inr (.inl ⟨by simpa using h1, h2, by cases h; rfl⟩)
    · rename_i h2
      split at h
      · cases h
      · rename_i v hv
        exact .inr (.inr ⟨by simpa using h1, by simpa using h2, v, hv, by cases h; rfl⟩)

/-- A load that is aligned, allowed and reads bytes that hold values completes (R259). -/
theorem load_eq (n : Nat) (ext : Word → Nat → Word) (rd : Reg) (ea v : Word) (s : State)
    (h1 : alignedTo ea n = true) (h2 : s.pma ea n .load = true) (h3 : memRead s.mem ea n = .ok v) :
    load n ext rd ea s = .next ((s.setX rd (ext v n)).advance) := by
  simp [load, h1, h2, h3, writeBack]

/-- A store always answers: it traps or it stores (R259). -/
theorem store_eq (n : Nat) (v ea : Word) (s : State) :
    store n v ea s = .next
      (if alignedTo ea n = false then takeTrap .storeAddressMisaligned ea s
       else if s.pma ea n .store = false then takeTrap .storeAccessFault ea s
       else (s.memWrite ea n v).advance) := by
  unfold store
  split
  · rfl
  · split <;> rfl

@[simp] theorem State.memWrite_mem (s : State) (a : Word) (n : Nat) (v : Word) :
    (s.memWrite a n v).mem = writeBytes s.mem a v n := rfl
@[simp] theorem State.memWrite_stale (s : State) (a : Word) (n : Nat) (v : Word) :
    (s.memWrite a n v).stale = staleEntries s.mem a n ++ s.stale := rfl
@[simp] theorem State.memWrite_readX (s : State) (a : Word) (n : Nat) (v : Word) (r : Reg) :
    (s.memWrite a n v).readX r = s.readX r := rfl
@[simp] theorem State.memWrite_pc (s : State) (a : Word) (n : Nat) (v : Word) : (s.memWrite a n v).pc = s.pc := rfl
@[simp] theorem State.memWrite_priv (s : State) (a : Word) (n : Nat) (v : Word) :
    (s.memWrite a n v).priv = s.priv := rfl
@[simp] theorem State.memWrite_csr (s : State) (a : Word) (n : Nat) (v : Word) :
    (s.memWrite a n v).csr = s.csr := rfl
@[simp] theorem State.memWrite_pmaRefused (s : State) (a : Word) (n : Nat) (v : Word) :
    (s.memWrite a n v).pmaRefused = s.pmaRefused := rfl

/-- The addresses a store makes stale are those of its bytes (R87). -/
theorem mem_staleEntries (m : Memory) (a : Word) (n : Nat) (e : Nat × Option Byte) :
    e ∈ staleEntries m a n ↔ ∃ i < n, e = (byteAddr a i, m.byteAt (byteAddr a i)) := by
  simp only [staleEntries, List.mem_map, List.mem_range, eq_comm]

/-- What a store records in the hidden set: each stored byte's address with what it held before (R105). -/
theorem mem_stale_memWrite (s : State) (a : Word) (n : Nat) (v : Word) (e : Nat × Option Byte) :
    e ∈ (s.memWrite a n v).stale ↔ e ∈ s.stale ∨ ∃ i < n, e = (byteAddr a i, s.mem.byteAt (byteAddr a i)) := by
  rw [State.memWrite_stale, List.mem_append, mem_staleEntries, or_comm]

/-! ## The step -/

/-- A byte that is not stale is delivered as memory holds it (R88). -/
theorem fetchByte_of_not_stale (s : State) (a i : Nat) (h : staleValues s.stale a = []) :
    s.fetchByte a i = s.mem.byteAt a := by
  simp [State.fetchByte, h]

/-- With no stale byte under the pc, none of its four bytes is. -/
theorem staleValues_of_fetchIsStale (s : State) (h : s.fetchIsStale = false) (i : Nat) (hi : i < 4) :
    staleValues s.stale (byteAddr s.pc i) = [] := by
  have := (List.any_eq_false.mp h) i (List.mem_range.mpr hi)
  simpa using this

/-- What a step that answers a next state has done (R13). -/
theorem step_next (s t : State) (h : step s = .next t) :
    s.priv = .machine ∧
    ((alignedTo s.pc 4 = false ∧ t = takeTrap .instructionAddressMisaligned s.pc s) ∨
     (alignedTo s.pc 4 = true ∧ s.pma s.pc 4 .fetch = false ∧ t = takeTrap .instructionAccessFault s.pc s) ∨
     (alignedTo s.pc 4 = true ∧ s.pma s.pc 4 .fetch = true ∧ ∃ w, s.fetchWord = .ok w ∧
       ((∃ e, decode w = .error e ∧ t = takeTrap .illegalInstruction w s.afterFetch) ∨
        (∃ i, decode w = .ok i ∧ exec i s.afterFetch = .next t)))) := by
  unfold step at h
  split at h
  · cases h
  · rename_i hp
    refine ⟨by simpa using hp, ?_⟩
    split at h
    · rename_i h1
      exact .inl ⟨h1, by cases h; rfl⟩
    · rename_i h1
      split at h
      · rename_i h2
        exact .inr (.inl ⟨by simpa using h1, h2, by cases h; rfl⟩)
      · rename_i h2
        split at h
        · cases h
        · rename_i w hw
          refine .inr (.inr ⟨by simpa using h1, by simpa using h2, w, hw, ?_⟩)
          split at h
          · rename_i e he
            exact .inl ⟨e, he, by cases h; rfl⟩
          · rename_i i hi
            exact .inr ⟨i, hi, h⟩

/-- What a fetch changes: at most the number of free values used up. -/
theorem State.afterFetch_cases (s : State) : s.afterFetch = s ∨ s.afterFetch = s.nextDraw := by
  unfold State.afterFetch
  split
  · exact .inr rfl
  · exact .inl rfl

end Sys2Proof.Machine
end

