-- ==== Sys2Proof/Laws/MemoryWf.lean ====
section
/-! SUPPORT. The canonical form of memory: it holds at reset, and every operation of the state that writes memory
keeps it. -/

namespace Sys2Proof.Machine

theorem State.reset_mem_wf : State.reset.mem.wf := by decide

/-- `MemWrite` keeps the canonical form. -/
theorem State.memWrite_wf (s : State) (a : Word) (n : Nat) (v : Word) (h : s.mem.wf) : (s.memWrite a n v).mem.wf :=
  writeBytes_wf s.mem a v n h

/-- Placing a word keeps the canonical form. -/
theorem State.placeWord_wf (s : State) (w : Word) (h : s.mem.wf) : (s.placeWord w).mem.wf :=
  writeBytes_wf s.mem s.pc w 4 h

/-- A store keeps the canonical form, whether it stores or traps. -/
theorem store_wf (n : Nat) (v ea : Word) (s t : State) (hs : s.mem.wf) (h : store n v ea s = .next t) : t.mem.wf := by
  rw [store_eq] at h
  cases h
  split
  · exact hs
  · split
    · exact hs
    · exact writeBytes_wf s.mem ea v n hs

end Sys2Proof.Machine
end

