-- ==== Sys2Proof/Laws/PerInstr.lean ====
section
/-! SUPPORT. The family EncodedOpcode, one lemma per instruction: the encoder puts the opcode of the instruction's row
of 30_encoding.md R140 in bits 6:0 (R120). -/

namespace Sys2Proof.Laws.EncodedOpcode

/-- Bits 6:0 of the encoded word are those of the row. -/
def Statement (i : Instr) : Prop := opcodeOf (encode i) = opcodeOf i.row.bits

theorem bne (rs1 rs2 : Reg) (offset : BitVec 13) : Statement (.bne rs1 rs2 offset) := (opcodeOf_encodeB ..).trans (show 0x63#7 = opcodeOf 0x00001063#32 by decide)
theorem beq (rs1 rs2 : Reg) (offset : BitVec 13) : Statement (.beq rs1 rs2 offset) := (opcodeOf_encodeB ..).trans (show 0x63#7 = opcodeOf 0x00000063#32 by decide)
theorem blt (rs1 rs2 : Reg) (offset : BitVec 13) : Statement (.blt rs1 rs2 offset) := (opcodeOf_encodeB ..).trans (show 0x63#7 = opcodeOf 0x00004063#32 by decide)
theorem bge (rs1 rs2 : Reg) (offset : BitVec 13) : Statement (.bge rs1 rs2 offset) := (opcodeOf_encodeB ..).trans (show 0x63#7 = opcodeOf 0x00005063#32 by decide)
theorem bltu (rs1 rs2 : Reg) (offset : BitVec 13) : Statement (.bltu rs1 rs2 offset) := (opcodeOf_encodeB ..).trans (show 0x63#7 = opcodeOf 0x00006063#32 by decide)
theorem bgeu (rs1 rs2 : Reg) (offset : BitVec 13) : Statement (.bgeu rs1 rs2 offset) := (opcodeOf_encodeB ..).trans (show 0x63#7 = opcodeOf 0x00007063#32 by decide)
theorem auipc (rd : Reg) (imm20 : BitVec 20) : Statement (.auipc rd imm20) := (opcodeOf_encodeU ..).trans (show 0x17#7 = opcodeOf 0x00000017#32 by decide)
theorem slt (rd rs1 rs2 : Reg) : Statement (.slt rd rs1 rs2) := (opcodeOf_encodeR ..).trans (show 0x33#7 = opcodeOf 0x00002033#32 by decide)
theorem sltu (rd rs1 rs2 : Reg) : Statement (.sltu rd rs1 rs2) := (opcodeOf_encodeR ..).trans (show 0x33#7 = opcodeOf 0x00003033#32 by decide)
theorem slti (rd rs1 : Reg) (imm12 : BitVec 12) : Statement (.slti rd rs1 imm12) := (opcodeOf_encodeI ..).trans (show 0x13#7 = opcodeOf 0x00002013#32 by decide)
theorem sltiu (rd rs1 : Reg) (imm12 : BitVec 12) : Statement (.sltiu rd rs1 imm12) := (opcodeOf_encodeI ..).trans (show 0x13#7 = opcodeOf 0x00003013#32 by decide)
theorem lui (rd : Reg) (imm20 : BitVec 20) : Statement (.lui rd imm20) := (opcodeOf_encodeU ..).trans (show 0x37#7 = opcodeOf 0x00000037#32 by decide)
theorem add (rd rs1 rs2 : Reg) : Statement (.add rd rs1 rs2) := (opcodeOf_encodeR ..).trans (show 0x33#7 = opcodeOf 0x00000033#32 by decide)
theorem sub (rd rs1 rs2 : Reg) : Statement (.sub rd rs1 rs2) := (opcodeOf_encodeR ..).trans (show 0x33#7 = opcodeOf 0x40000033#32 by decide)
theorem addi (rd rs1 : Reg) (imm12 : BitVec 12) : Statement (.addi rd rs1 imm12) := (opcodeOf_encodeI ..).trans (show 0x13#7 = opcodeOf 0x00000013#32 by decide)
theorem jal (rd : Reg) (offset : BitVec 21) : Statement (.jal rd offset) := (opcodeOf_encodeJ ..).trans (show 0x6F#7 = opcodeOf 0x0000006F#32 by decide)
theorem jalr (rd rs1 : Reg) (offset : BitVec 12) : Statement (.jalr rd rs1 offset) := (opcodeOf_encodeI ..).trans (show 0x67#7 = opcodeOf 0x00000067#32 by decide)
theorem xor (rd rs1 rs2 : Reg) : Statement (.xor rd rs1 rs2) := (opcodeOf_encodeR ..).trans (show 0x33#7 = opcodeOf 0x00004033#32 by decide)
theorem or (rd rs1 rs2 : Reg) : Statement (.or rd rs1 rs2) := (opcodeOf_encodeR ..).trans (show 0x33#7 = opcodeOf 0x00006033#32 by decide)
theorem and (rd rs1 rs2 : Reg) : Statement (.and rd rs1 rs2) := (opcodeOf_encodeR ..).trans (show 0x33#7 = opcodeOf 0x00007033#32 by decide)
theorem ori (rd rs1 : Reg) (imm12 : BitVec 12) : Statement (.ori rd rs1 imm12) := (opcodeOf_encodeI ..).trans (show 0x13#7 = opcodeOf 0x00006013#32 by decide)
theorem xori (rd rs1 : Reg) (imm12 : BitVec 12) : Statement (.xori rd rs1 imm12) := (opcodeOf_encodeI ..).trans (show 0x13#7 = opcodeOf 0x00004013#32 by decide)
theorem andi (rd rs1 : Reg) (imm12 : BitVec 12) : Statement (.andi rd rs1 imm12) := (opcodeOf_encodeI ..).trans (show 0x13#7 = opcodeOf 0x00007013#32 by decide)
theorem sw (rs2 rs1 : Reg) (offset : BitVec 12) : Statement (.sw rs2 rs1 offset) := (opcodeOf_encodeS ..).trans (show 0x23#7 = opcodeOf 0x00002023#32 by decide)
theorem lb (rd rs1 : Reg) (offset : BitVec 12) : Statement (.lb rd rs1 offset) := (opcodeOf_encodeI ..).trans (show 0x03#7 = opcodeOf 0x00000003#32 by decide)
theorem lh (rd rs1 : Reg) (offset : BitVec 12) : Statement (.lh rd rs1 offset) := (opcodeOf_encodeI ..).trans (show 0x03#7 = opcodeOf 0x00001003#32 by decide)
theorem lw (rd rs1 : Reg) (offset : BitVec 12) : Statement (.lw rd rs1 offset) := (opcodeOf_encodeI ..).trans (show 0x03#7 = opcodeOf 0x00002003#32 by decide)
theorem lbu (rd rs1 : Reg) (offset : BitVec 12) : Statement (.lbu rd rs1 offset) := (opcodeOf_encodeI ..).trans (show 0x03#7 = opcodeOf 0x00004003#32 by decide)
theorem lhu (rd rs1 : Reg) (offset : BitVec 12) : Statement (.lhu rd rs1 offset) := (opcodeOf_encodeI ..).trans (show 0x03#7 = opcodeOf 0x00005003#32 by decide)
theorem sb (rs2 rs1 : Reg) (offset : BitVec 12) : Statement (.sb rs2 rs1 offset) := (opcodeOf_encodeS ..).trans (show 0x23#7 = opcodeOf 0x00000023#32 by decide)
theorem sh (rs2 rs1 : Reg) (offset : BitVec 12) : Statement (.sh rs2 rs1 offset) := (opcodeOf_encodeS ..).trans (show 0x23#7 = opcodeOf 0x00001023#32 by decide)
theorem srai (rd rs1 : Reg) (shamt : BitVec 5) : Statement (.srai rd rs1 shamt) := (opcodeOf_encodeR ..).trans (show 0x13#7 = opcodeOf 0x40005013#32 by decide)
theorem slli (rd rs1 : Reg) (shamt : BitVec 5) : Statement (.slli rd rs1 shamt) := (opcodeOf_encodeR ..).trans (show 0x13#7 = opcodeOf 0x00001013#32 by decide)
theorem sra (rd rs1 rs2 : Reg) : Statement (.sra rd rs1 rs2) := (opcodeOf_encodeR ..).trans (show 0x33#7 = opcodeOf 0x40005033#32 by decide)
theorem srl (rd rs1 rs2 : Reg) : Statement (.srl rd rs1 rs2) := (opcodeOf_encodeR ..).trans (show 0x33#7 = opcodeOf 0x00005033#32 by decide)
theorem sll (rd rs1 rs2 : Reg) : Statement (.sll rd rs1 rs2) := (opcodeOf_encodeR ..).trans (show 0x33#7 = opcodeOf 0x00001033#32 by decide)
theorem srli (rd rs1 : Reg) (shamt : BitVec 5) : Statement (.srli rd rs1 shamt) := (opcodeOf_encodeR ..).trans (show 0x13#7 = opcodeOf 0x00005013#32 by decide)
theorem fencei : Statement .fencei := (opcodeOf_encodeI ..).trans (show 0x0F#7 = opcodeOf 0x0000100F#32 by decide)
theorem fence (pred succ : BitVec 4) : Statement (.fence pred succ) := (opcodeOf_encodeI ..).trans (show 0x0F#7 = opcodeOf 0x0000000F#32 by decide)
theorem csrrci (rd : Reg) (csr : CsrAddr) (uimm5 : BitVec 5) : Statement (.csrrci rd csr uimm5) := (opcodeOf_encodeI ..).trans (show 0x73#7 = opcodeOf 0x00007073#32 by decide)
theorem ecall : Statement .ecall := rfl
theorem ebreak : Statement .ebreak := rfl
theorem csrrw (rd : Reg) (csr : CsrAddr) (rs1 : Reg) : Statement (.csrrw rd csr rs1) := (opcodeOf_encodeI ..).trans (show 0x73#7 = opcodeOf 0x00001073#32 by decide)
theorem csrrs (rd : Reg) (csr : CsrAddr) (rs1 : Reg) : Statement (.csrrs rd csr rs1) := (opcodeOf_encodeI ..).trans (show 0x73#7 = opcodeOf 0x00002073#32 by decide)
theorem csrrc (rd : Reg) (csr : CsrAddr) (rs1 : Reg) : Statement (.csrrc rd csr rs1) := (opcodeOf_encodeI ..).trans (show 0x73#7 = opcodeOf 0x00003073#32 by decide)
theorem csrrwi (rd : Reg) (csr : CsrAddr) (uimm5 : BitVec 5) : Statement (.csrrwi rd csr uimm5) := (opcodeOf_encodeI ..).trans (show 0x73#7 = opcodeOf 0x00005073#32 by decide)
theorem csrrsi (rd : Reg) (csr : CsrAddr) (uimm5 : BitVec 5) : Statement (.csrrsi rd csr uimm5) := (opcodeOf_encodeI ..).trans (show 0x73#7 = opcodeOf 0x00006073#32 by decide)

end Sys2Proof.Laws.EncodedOpcode
end

