-- ==== Sys2Proof/Laws/Run.lean ====
section
/-! SUPPORT. What a run under a predicate `HALT` does, said once: it ends, it goes on, or it takes one step. -/

namespace Sys2Proof.Machine

/-- A run has ended at a state that `halt` holds of, however many steps are left. -/
theorem runUntil_of_halt (halt : State → Bool) (k : Nat) (s : State) (h : halt s = true) :
    runUntil halt k s = .halted s := by
  cases k <;> simp [runUntil, h]

/-- With no step left, a run that has not ended is running. -/
theorem runUntil_zero_of_not_halt (halt : State → Bool) (s : State) (h : halt s = false) :
    runUntil halt 0 s = .running s := by
  simp [runUntil, h]

/-- A run that has not ended takes the machine's step and goes on from its next state. -/
theorem runUntil_succ_of_next (halt : State → Bool) (k : Nat) (s t : State) (h : halt s = false) (ht : step s = .next t) :
    runUntil halt (k + 1) s = runUntil halt k t := by
  simp [runUntil, h, ht]

end Sys2Proof.Machine
end

