-- ==== Sys2Proof/Tests/Slice0.lean ====
section
/-! SUPPORT. Tests. The expected results are the spec's: the words of 40_branch.md to 47_system.md and the rows of
95_test_vectors.md, whose names (VB1, VI4, …) the tests carry; then, for every obligation with hypotheses, a state and
operands that meet them together. -/

namespace Sys2Proof.Tests

open Sys2Proof Sys2Proof.Machine

/-! ## Well-formedness: a term that no word encodes is refused -/

theorem test_wf_odd_branch_refused : (Instr.bne 5 6 17).wellFormed = false := by decide
theorem test_wf_odd_jump_refused : (Instr.jal 1 0x1FFFFF#21).wellFormed = false := by decide
theorem test_wf_even_branch_accepted : (Instr.bgeu 5 6 (-4096)).wellFormed = true := by decide
theorem test_wf_even_jump_accepted : (Instr.jal 1 (-1048576)).wellFormed = true := by decide

/-! ## Decoding: one word for every instruction, as the spec writes it in hexadecimal -/

theorem test_decode_bne : decode 0x00629863#32 = .ok (.bne 5 6 16) := by decide
theorem test_decode_beq : decode 0xFE050CE3#32 = .ok (.beq 10 0 (-8)) := by decide
theorem test_decode_blt : decode 0x7E62CFE3#32 = .ok (.blt 5 6 4094) := by decide
theorem test_decode_bge : decode 0x8062D063#32 = .ok (.bge 5 6 (-4096)) := by decide
theorem test_decode_bltu : decode 0x0062E0E3#32 = .ok (.bltu 5 6 2048) := by decide
theorem test_decode_bgeu : decode 0x0062F663#32 = .ok (.bgeu 5 6 12) := by decide
theorem test_decode_auipc : decode 0x12345297#32 = .ok (.auipc 5 0x12345) := by decide
theorem test_decode_slt : decode 0x007322B3#32 = .ok (.slt 5 6 7) := by decide
theorem test_decode_sltu : decode 0x007332B3#32 = .ok (.sltu 5 6 7) := by decide
theorem test_decode_slti : decode 0xFFF32293#32 = .ok (.slti 5 6 (-1)) := by decide
theorem test_decode_sltiu : decode 0xFFF33293#32 = .ok (.sltiu 5 6 (-1)) := by decide
theorem test_decode_lui : decode 0x123452B7#32 = .ok (.lui 5 0x12345) := by decide
theorem test_decode_add : decode 0x007302B3#32 = .ok (.add 5 6 7) := by decide
theorem test_decode_sub : decode 0x407302B3#32 = .ok (.sub 5 6 7) := by decide
theorem test_decode_addi : decode 0xFFF30293#32 = .ok (.addi 5 6 (-1)) := by decide
theorem test_decode_jal : decode 0x344120EF#32 = .ok (.jal 1 0x12344) := by decide
theorem test_decode_jalr : decode 0xFFC280E7#32 = .ok (.jalr 1 5 (-4)) := by decide
theorem test_decode_xor : decode 0x007342B3#32 = .ok (.xor 5 6 7) := by decide
theorem test_decode_or : decode 0x007362B3#32 = .ok (.or 5 6 7) := by decide
theorem test_decode_and : decode 0x007372B3#32 = .ok (.and 5 6 7) := by decide
theorem test_decode_ori : decode 0xF0036293#32 = .ok (.ori 5 6 (-256)) := by decide
theorem test_decode_xori : decode 0xFFF34293#32 = .ok (.xori 5 6 (-1)) := by decide
theorem test_decode_andi : decode 0xFF037293#32 = .ok (.andi 5 6 (-16)) := by decide
theorem test_decode_sw : decode 0xFE712E23#32 = .ok (.sw 7 2 (-4)) := by decide
theorem test_decode_lb : decode 0x00330283#32 = .ok (.lb 5 6 3) := by decide
theorem test_decode_lh : decode 0x00231283#32 = .ok (.lh 5 6 2) := by decide
theorem test_decode_lw : decode 0x00832283#32 = .ok (.lw 5 6 8) := by decide
theorem test_decode_lbu : decode 0x00034283#32 = .ok (.lbu 5 6 0) := by decide
theorem test_decode_lhu : decode 0x00235283#32 = .ok (.lhu 5 6 2) := by decide
theorem test_decode_sb : decode 0x007301A3#32 = .ok (.sb 7 6 3) := by decide
theorem test_decode_sh : decode 0x807310A3#32 = .ok (.sh 7 6 (-2047)) := by decide
theorem test_decode_srai : decode 0x40435293#32 = .ok (.srai 5 6 4) := by decide
theorem test_decode_slli : decode 0x01F31293#32 = .ok (.slli 5 6 31) := by decide
theorem test_decode_sra : decode 0x407352B3#32 = .ok (.sra 5 6 7) := by decide
theorem test_decode_srl : decode 0x007352B3#32 = .ok (.srl 5 6 7) := by decide
theorem test_decode_sll : decode 0x007312B3#32 = .ok (.sll 5 6 7) := by decide
theorem test_decode_srli : decode 0x00435293#32 = .ok (.srli 5 6 4) := by decide
theorem test_decode_fencei : decode 0x0000100F#32 = .ok .fencei := by decide
theorem test_decode_fence : decode 0x0FF0000F#32 = .ok (.fence 15 15) := by decide
theorem test_decode_csrrci : decode 0x300472F3#32 = .ok (.csrrci 5 0x300 8) := by decide
theorem test_decode_ecall : decode 0x00000073#32 = .ok .ecall := by decide
theorem test_decode_ebreak : decode 0x00100073#32 = .ok .ebreak := by decide
theorem test_decode_csrrw : decode 0x340312F3#32 = .ok (.csrrw 5 0x340 6) := by decide
theorem test_decode_csrrs : decode 0x300322F3#32 = .ok (.csrrs 5 0x300 6) := by decide
theorem test_decode_csrrc : decode 0x300332F3#32 = .ok (.csrrc 5 0x300 6) := by decide
theorem test_decode_csrrwi : decode 0x340FD2F3#32 = .ok (.csrrwi 5 0x340 31) := by decide
theorem test_decode_csrrsi : decode 0x30046073#32 = .ok (.csrrsi 0 0x300 8) := by decide

/-! The words that 95_test_vectors.md calls illegal, each by the clause of R145 it falls under -/

theorem test_illegal_VX1 : decode 0x00000000#32 = .error .unknownOpcode := by decide
theorem test_illegal_VX2 : decode 0xFFFFFFFF#32 = .error .unknownOpcode := by decide
theorem test_illegal_VX3 : decode 0x02000033#32 = .error .unknownFunct7 := by decide
theorem test_illegal_VX4 : decode 0x40001033#32 = .error .unknownFunct7 := by decide
theorem test_illegal_VX5 : decode 0x00003003#32 = .error .unknownLoad := by decide
theorem test_illegal_VX6 : decode 0x00003023#32 = .error .unknownStore := by decide
theorem test_illegal_VX7 : decode 0x00002063#32 = .error .unknownBranch := by decide
theorem test_illegal_VX8 : decode 0x00001067#32 = .error .unknownJalr := by decide
theorem test_illegal_VX9 : decode 0x00000001#32 = .error .unknownOpcode := by decide
theorem test_illegal_VS13 : decode 0x02035293#32 = .error .unknownShiftFunct7 := by decide
theorem test_illegal_VY4 : decode 0x0000200F#32 = .error .unknownFence := by decide
theorem test_illegal_VC15 : decode 0x30200073#32 = .error .unknownSystem := by decide
theorem test_illegal_VC16 : decode 0x10500073#32 = .error .unknownSystem := by decide
theorem test_illegal_VC17 : decode 0x00004073#32 = .error .unknownSystem := by decide

theorem test_decodeTableWord : decodeTableWord 32 0x407302B3 = some (.sub 5 6 7) := by decide
theorem test_decodeTableWord_rejects : decodeTableWord 32 0x02000033 = none := by decide
theorem test_decodeBytes_leaves_the_rest :
    decodeBytes [0x73, 0x00, 0x10, 0x00, 0x13] = .ok (.ebreak, [0x13]) := by decide
theorem test_decodeBytes_truncated : decodeBytes [0x73, 0x00, 0x10] = .error .truncated := by decide

/-! ## One step: the rows of 95_test_vectors.md -/

/-- A machine after reset with these registers and pc. -/
def regsAt (pc : Word) (regs : List (Reg × Word)) : State :=
  regs.foldl (fun s p => s.setX p.1 p.2) (State.reset.setPc pc)

/-- The machine with the handler address and `mstatus` that the trap rows set (95_test_vectors.md). -/
def trapsAt (pc : Word) (regs : List (Reg × Word)) : State :=
  ((regsAt pc regs).csrSet .mtvec 0x200).csrSet .mstatus 0x8

/-- The machine with a datum of memory. -/
def withWord (s : State) (a v : Word) : State := s.setMem (writeBytes s.mem a v 4)

/-- One step, this word standing at the pc. -/
def run (s : State) (w : Nat) : Result := step (s.withFetchWord 32 w)

/-- The pc of a next state. -/
def pcOf : Result → Option Word
  | .next t => some t.pc
  | .fault _ => none
  | .refused _ => none

/-- A register and the pc of a next state. -/
def regOf (r : Reg) : Result → Option (Word × Word)
  | .next t => some (t.readX r, t.pc)
  | .fault _ => none
  | .refused _ => none

/-- A CSR and a register of a next state. -/
def csrOf (c : Csr) (r : Reg) : Result → Option (Word × Word)
  | .next t => some (t.csrValue c, t.readX r)
  | .fault _ => none
  | .refused _ => none

/-- Two bytes of memory of a next state. -/
def bytesOf (a b : Nat) : Result → Option (Option Byte × Option Byte)
  | .next t => some (t.mem.byteAt a, t.mem.byteAt b)
  | .fault _ => none
  | .refused _ => none

/-- What trap entry leaves: `mcause`, `mepc`, `mstatus` and the pc. -/
def trapOf : Result → Option (Word × Word × Word × Word)
  | .next t => some (t.csr.mcause, t.csr.mepc, t.csr.mstatus, t.pc)
  | .fault _ => none
  | .refused _ => none

/-- The reason of a stop of the model. -/
def stopOf : Result → Option (Fault ⊕ Refusal)
  | .next _ => none
  | .fault f => some (.inl f)
  | .refused r => some (.inr r)

/-- `BNE x5, x6, +16` -/
theorem test_VB1 :
    pcOf (run (regsAt 0x00001000 [(5, 0x00000001), (6, 0x00000002)]) 0x00629863) = some 0x00001010 := by decide
/-- `BNE x5, x6, +16` -/
theorem test_VB2 :
    pcOf (run (regsAt 0x00001000 [(5, 0x00000002), (6, 0x00000002)]) 0x00629863) = some 0x00001004 := by decide
/-- `BEQ x10, x0, -8` -/
theorem test_VB3 : pcOf (run (regsAt 0x00001000 [(10, 0x00000000)]) 0xFE050CE3) = some 0x00000FF8 := by decide
/-- `BEQ x0, x0, +0` -/
theorem test_VB4 : pcOf (run (regsAt 0x00001000 []) 0x00000063) = some 0x00001000 := by decide
/-- `BLT x5, x6, +4094` -/
theorem test_VB5 :
    pcOf (run (regsAt 0x00001000 [(5, 0xFFFFFFFF), (6, 0x00000001)]) 0x7E62CFE3) = some 0x00001FFE := by decide
/-- `BGE x5, x6, -4096` -/
theorem test_VB7 :
    pcOf (run (regsAt 0x00001000 [(5, 0x80000000), (6, 0x7FFFFFFF)]) 0x8062D063) = some 0x00001004 := by decide
/-- `BGE x5, x6, -4096` -/
theorem test_VB8 :
    pcOf (run (regsAt 0x00001000 [(5, 0x00000007), (6, 0x00000007)]) 0x8062D063) = some 0x00000000 := by decide
/-- `BLTU x5, x6, +2048` -/
theorem test_VB6 :
    pcOf (run (regsAt 0x00001000 [(5, 0xFFFFFFFF), (6, 0x00000001)]) 0x0062E0E3) = some 0x00001004 := by decide
/-- `BLTU x5, x6, +2048` -/
theorem test_VB10 :
    pcOf (run (regsAt 0xFFFFFC00 [(5, 0x00000000), (6, 0x00000001)]) 0x0062E0E3) = some 0x00000400 := by decide
/-- `BGEU x5, x6, +12` -/
theorem test_VB9 :
    pcOf (run (regsAt 0x00001000 [(5, 0x80000000), (6, 0x7FFFFFFF)]) 0x0062F663) = some 0x0000100C := by decide
/-- `ADD x5, x6, x7` -/
theorem test_VI1 : regOf 5 (run (regsAt 0x00001000 [(6, 0x7FFFFFFF), (7, 0x00000001)]) 0x007302B3) =
    some (0x80000000, 0x00001004) := by decide
/-- `ADD x5, x6, x7` -/
theorem test_VI2 : regOf 5 (run (regsAt 0x00001000 [(6, 0xFFFFFFFF), (7, 0x00000001)]) 0x007302B3) =
    some (0x00000000, 0x00001004) := by decide
/-- `SUB x5, x6, x7` -/
theorem test_VI4 : regOf 5 (run (regsAt 0x00001000 [(6, 0x00000000), (7, 0x00000001)]) 0x407302B3) =
    some (0xFFFFFFFF, 0x00001004) := by decide
/-- `SUB x5, x5, x5` -/
theorem test_VI6 : regOf 5 (run (regsAt 0x00001000 [(5, 0x00001234)]) 0x405282B3) =
    some (0x00000000, 0x00001004) := by decide
/-- `SLT x5, x6, x7` -/
theorem test_VI11 : regOf 5 (run (regsAt 0x00001000 [(6, 0xFFFFFFFF), (7, 0x00000001)]) 0x007322B3) =
    some (0x00000001, 0x00001004) := by decide
/-- `SLTU x5, x6, x7` -/
theorem test_VI12 : regOf 5 (run (regsAt 0x00001000 [(6, 0xFFFFFFFF), (7, 0x00000001)]) 0x007332B3) =
    some (0x00000000, 0x00001004) := by decide
/-- `SLTI x5, x6, -1` -/
theorem test_VI14 : regOf 5 (run (regsAt 0x00001000 [(6, 0xFFFFFFFE)]) 0xFFF32293) =
    some (0x00000001, 0x00001004) := by decide
/-- `SLTIU x5, x6, -1` -/
theorem test_VI15 : regOf 5 (run (regsAt 0x00001000 [(6, 0xFFFFFFFE)]) 0xFFF33293) =
    some (0x00000001, 0x00001004) := by decide
/-- `SLTIU x5, x6, -1` -/
theorem test_VI17 : regOf 5 (run (regsAt 0x00001000 [(6, 0xFFFFFFFF)]) 0xFFF33293) =
    some (0x00000000, 0x00001004) := by decide
/-- `LUI x5, 0x12345` -/
theorem test_VI18 : regOf 5 (run (regsAt 0x00001000 []) 0x123452B7) = some (0x12345000, 0x00001004) := by decide
/-- `AUIPC x5, 0x12345` -/
theorem test_VI20 : regOf 5 (run (regsAt 0x00001000 []) 0x12345297) = some (0x12346000, 0x00001004) := by decide
/-- `AUIPC x5, 0xFFFFF` -/
theorem test_VI21 : regOf 5 (run (regsAt 0x00001000 []) 0xFFFFF297) = some (0x00000000, 0x00001004) := by decide
/-- `JAL x1, +2048` -/
theorem test_VJ1 : regOf 1 (run (regsAt 0x00001000 []) 0x001000EF) = some (0x00001004, 0x00001800) := by decide
/-- `JAL x1, +8` -/
theorem test_VJ5 : regOf 1 (run (regsAt 0xFFFFFFFC []) 0x008000EF) = some (0x00000000, 0x00000004) := by decide
/-- `JALR x5, x5, 0` -/
theorem test_VJ7 : regOf 5 (run (regsAt 0x00001000 [(5, 0x00002000)]) 0x000282E7) =
    some (0x00001004, 0x00002000) := by decide
/-- `JALR x1, x6, 3` -/
theorem test_VJ8 : regOf 1 (run (regsAt 0x00001000 [(6, 0x00002000)]) 0x003300E7) =
    some (0x00001004, 0x00002002) := by decide
/-- `XOR x5, x6, x7` -/
theorem test_VL1 : regOf 5 (run (regsAt 0x00001000 [(6, 0xFF00FF00), (7, 0x0FF00FF0)]) 0x007342B3) =
    some (0xF0F0F0F0, 0x00001004) := by decide
/-- `OR x5, x6, x7` -/
theorem test_VL2 : regOf 5 (run (regsAt 0x00001000 [(6, 0xFF00FF00), (7, 0x0FF00FF0)]) 0x007362B3) =
    some (0xFFF0FFF0, 0x00001004) := by decide
/-- `AND x5, x6, x7` -/
theorem test_VL3 : regOf 5 (run (regsAt 0x00001000 [(6, 0xFF00FF00), (7, 0x0FF00FF0)]) 0x007372B3) =
    some (0x0F000F00, 0x00001004) := by decide
/-- `ORI x5, x6, -256` -/
theorem test_VL6 : regOf 5 (run (regsAt 0x00001000 [(6, 0x00000012)]) 0xF0036293) =
    some (0xFFFFFF12, 0x00001004) := by decide
/-- `XORI x5, x6, -1` -/
theorem test_VL7 : regOf 5 (run (regsAt 0x00001000 [(6, 0x12345678)]) 0xFFF34293) =
    some (0xEDCBA987, 0x00001004) := by decide
/-- `ANDI x5, x6, -16` -/
theorem test_VL9 : regOf 5 (run (regsAt 0x00001000 [(6, 0x12345678)]) 0xFF037293) =
    some (0x12345670, 0x00001004) := by decide
/-- `SLLI x5, x6, 4` -/
theorem test_VS1 : regOf 5 (run (regsAt 0x00001000 [(6, 0x12345678)]) 0x00431293) =
    some (0x23456780, 0x00001004) := by decide
/-- `SLLI x5, x6, 31` -/
theorem test_VS2 : regOf 5 (run (regsAt 0x00001000 [(6, 0x00000003)]) 0x01F31293) =
    some (0x80000000, 0x00001004) := by decide
/-- `SRLI x5, x6, 4` -/
theorem test_VS3 : regOf 5 (run (regsAt 0x00001000 [(6, 0x87654321)]) 0x00435293) =
    some (0x08765432, 0x00001004) := by decide
/-- `SRAI x5, x6, 4` -/
theorem test_VS4 : regOf 5 (run (regsAt 0x00001000 [(6, 0x87654321)]) 0x40435293) =
    some (0xF8765432, 0x00001004) := by decide
/-- `SRAI x5, x6, 31` -/
theorem test_VS6 : regOf 5 (run (regsAt 0x00001000 [(6, 0x7FFFFFFF)]) 0x41F35293) =
    some (0x00000000, 0x00001004) := by decide
/-- `SLL x5, x6, x7` -/
theorem test_VS8 : regOf 5 (run (regsAt 0x00001000 [(6, 0x00000001), (7, 0xFFFFFFFF)]) 0x007312B3) =
    some (0x80000000, 0x00001004) := by decide
/-- `SLL x5, x6, x7` -/
theorem test_VS9 : regOf 5 (run (regsAt 0x00001000 [(6, 0x12345678), (7, 0x00000020)]) 0x007312B3) =
    some (0x12345678, 0x00001004) := by decide
/-- `SRL x5, x6, x7` -/
theorem test_VS10 : regOf 5 (run (regsAt 0x00001000 [(6, 0x80000000), (7, 0x00000021)]) 0x007352B3) =
    some (0x40000000, 0x00001004) := by decide
/-- `SRA x5, x6, x7` -/
theorem test_VS11 : regOf 5 (run (regsAt 0x00001000 [(6, 0x80000000), (7, 0x00000021)]) 0x407352B3) =
    some (0xC0000000, 0x00001004) := by decide
/-- `LB x5, 0(x6)` -/
theorem test_VM6 : regOf 5 (run (withWord (regsAt 0x00001000 [(6, 0x00002000)]) 0x2000 0x80) 0x00030283) =
    some (0xFFFFFF80, 0x00001004) := by decide
/-- `LBU x5, 0(x6)` -/
theorem test_VM7 : regOf 5 (run (withWord (regsAt 0x00001000 [(6, 0x00002000)]) 0x2000 0x80) 0x00034283) =
    some (0x00000080, 0x00001004) := by decide
/-- `LH x5, 2(x6)` -/
theorem test_VM8 : regOf 5 (run (withWord (regsAt 0x00001000 [(6, 0x00002000)]) 0x2002 0x8001) 0x00231283) =
    some (0xFFFF8001, 0x00001004) := by decide
/-- `LHU x5, 2(x6)` -/
theorem test_VM9 : regOf 5 (run (withWord (regsAt 0x00001000 [(6, 0x00002000)]) 0x2002 0x8001) 0x00235283) =
    some (0x00008001, 0x00001004) := by decide
/-- `LB x5, 3(x6)` -/
theorem test_VM10 : regOf 5 (run (withWord (regsAt 0x00001000 [(6, 0x00002000)]) 0x2000 0x11223344) 0x00330283) =
    some (0x00000011, 0x00001004) := by decide
/-- `LW x5, 2047(x6)` -/
theorem test_VM20 : regOf 5 (run (withWord (regsAt 0x00001000 [(6, 0xFFFFF805)]) 0x4 0x0BADCAFE) 0x7FF32283) =
    some (0x0BADCAFE, 0x00001004) := by decide
/-- `SH x7, 2(x6)` -/
theorem test_VM2 : bytesOf 0x2002 0x2003 (run (regsAt 0x00001000 [(6, 0x00002000), (7, 0x11223344)]) 0x00731123) =
    some (some 0x44, some 0x33) := by decide
/-- `SB x7, 3(x6)` -/
theorem test_VM3 : bytesOf 0x2003 0x2002 (run (regsAt 0x00001000 [(6, 0x00002000), (7, 0x11223344)]) 0x007301A3) =
    some (some 0x44, none) := by decide
/-- `SW x7, -4(x2)` -/
theorem test_VM4 : bytesOf 0x2FFC 0x2FFF (run (regsAt 0x00001000 [(2, 0x00003000), (7, 0xCAFEF00D)]) 0xFE712E23) =
    some (some 0x0D, some 0xCA) := by decide
/-- `LH x5, 1(x6)` -/
theorem test_VM15 : trapOf (run (withWord (trapsAt 0x00001000 [(6, 0x00002000)]) 0x2000 0x00000000) 0x00131283) =
    some (0x00000004, 0x00001000, 0x00001880, 0x00000200) := by decide
/-- `SW x7, 2(x6)` -/
theorem test_VM16 : trapOf (run (trapsAt 0x00001000 [(6, 0x00002000), (7, 0x00000001)]) 0x00732123) =
    some (0x00000006, 0x00001000, 0x00001880, 0x00000200) := by decide
/-- `SH x7, -2047(x6)` -/
theorem test_VM17 : trapOf (run (trapsAt 0x00001000 [(6, 0x00002800), (7, 0x00000001)]) 0x807310A3) =
    some (0x00000006, 0x00001000, 0x00001880, 0x00000200) := by decide
/-- `LW x5, 0(x6)` of memory never written: a fault of the model -/
theorem test_VM21 : stopOf (run (regsAt 0x00001000 [(6, 0x00002000)]) 0x00032283) =
    some (.inl (.loadOfUnwrittenByte 0x2000)) := by decide
/-- `SB x7, 0(x6)` that the platform refuses -/
theorem test_VM19 : trapOf (run ((trapsAt 0x00001000 [(6, 0x80000000), (7, 1)]).setPma [⟨.store, 1, 0x80000000, 0xFFFFFFFF⟩])
    0x00730023) = some (7, 0x1000, 0x1880, 0x200) := by decide
/-- `FENCE 0xF, 0xF` -/
theorem test_VY1 : pcOf (run (regsAt 0x00001000 []) 0x0FF0000F) = some 0x00001004 := by decide
/-- `FENCEI` -/
theorem test_VY3 : pcOf (run (regsAt 0x00001000 []) 0x0000100F) = some 0x00001004 := by decide
/-- `CSRRW x6, mscratch, x6` -/
theorem test_VC2 : csrOf .mscratch 6 (run ((regsAt 0x00001000 [(6, 0x12345678)]).csrSet .mscratch 0xAAAA5555) 0x34031373) =
    some (0x12345678, 0xAAAA5555) := by decide
/-- `CSRRS x5, mstatus, x6` -/
theorem test_VC5 : csrOf .mstatus 5 (run ((regsAt 0x00001000 [(6, 0x00000008)]).csrSet .mstatus 0x00001880) 0x300322F3) =
    some (0x00001888, 0x00001880) := by decide
/-- `CSRRC x5, mstatus, x6` -/
theorem test_VC7 : csrOf .mstatus 5 (run ((regsAt 0x00001000 [(6, 0x00000088)]).csrSet .mstatus 0x00001888) 0x300332F3) =
    some (0x00001800, 0x00001888) := by decide
/-- `CSRRWI x5, mscratch, 31` -/
theorem test_VC8 : csrOf .mscratch 5 (run ((regsAt 0x00001000 []).csrSet .mscratch 0x12345678) 0x340FD2F3) =
    some (0x0000001F, 0x12345678) := by decide
/-- `CSRRSI x0, mstatus, 8` -/
theorem test_VC9 : csrOf .mstatus 0 (run ((regsAt 0x00001000 []).csrSet .mstatus 0x00000000) 0x30046073) =
    some (0x00000008, 0) := by decide
/-- `CSRRCI x5, mstatus, 8` -/
theorem test_VC10 : csrOf .mstatus 5 (run ((regsAt 0x00001000 []).csrSet .mstatus 0x00001888) 0x300472F3) =
    some (0x00001880, 0x00001888) := by decide
/-- `CSRRS x5, 0xf14, x0` -/
theorem test_VC11 : trapOf (run (trapsAt 0x00001000 []) 0xF14022F3) =
    some (0x00000002, 0x00001000, 0x00001880, 0x00000200) := by decide
/-- `ECALL` -/
theorem test_VC12 : trapOf (run (trapsAt 0x00000104 []) 0x00000073) =
    some (0x0000000B, 0x00000108, 0x00001880, 0x00000200) := by decide
/-- `EBREAK` -/
theorem test_VC13 : trapOf (run ((trapsAt 0x00000040 []).csrSet .mstatus 0x00001880) 0x00100073) =
    some (0x00000003, 0x00000044, 0x00001800, 0x00000200) := by decide
/-- `.word 0x00000000` -/
theorem test_VX1 : trapOf (run (trapsAt 0x00001000 []) 0x00000000) =
    some (0x00000002, 0x00001000, 0x00001880, 0x00000200) := by decide
/-- `ADDI x5, x0, 1` -/
theorem test_VX10 : trapOf (run (trapsAt 0x00001002 []) 0x00100293) =
    some (0x00000000, 0x00001002, 0x00001880, 0x00000200) := by decide
/-- A fetch that the platform refuses -/
theorem test_VX11 : trapOf (step ((trapsAt 0x80000000 []).setPma [⟨.fetch, 4, 0x80000000, 0xFFFFFFFF⟩])) =
    some (1, 0x80000000, 0x1880, 0x200) := by decide
/-- The first instruction after reset, placed by `withFetchWord`: `ADDI x5, x6, -1` (R218) -/
theorem test_first_after_reset : regOf 5 (run State.reset 0xFFF30293) = some (0xFFFFFFFF, 4) := by decide
/-- With nothing placed, the first fetch after reset finds no value (R66, R107) -/
theorem test_reset_alone : stopOf (step State.reset) = some (.inl (.fetchOfUnwrittenByte 0)) := by decide
/-- A write to `ucycle` is refused (R44, R53) -/
theorem test_ucycle_write_refused : stopOf (run State.reset 0xC0001073) = some (.inr .readOnlyCounterWrite) := by decide
/-- A store makes the word at the pc stale (R87) -/
theorem test_store_makes_stale : ((regsAt 0x1000 []).memWrite 0x1003 1 0x13).fetchIsStale = true := by decide
/-- A fetch of a word placed by `withFetchWord` meets no stale byte (R107) -/
theorem test_placed_word_is_not_stale :
    (((regsAt 0x1000 []).memWrite 0x1000 4 0x13).withFetchWord 32 0x13).fetchIsStale = false := by decide

/-! ## Witnesses: for every obligation with hypotheses, a state and operands that meet them together -/

/-- M mode, this word at the pc, nothing stale, nothing refused. -/
def codeAt (pc : Word) (w : Nat) : State := (State.reset.setPc pc).withFetchWord 32 w

/-- The machine whose platform refuses the accesses of this kind and width anywhere. -/
def refusing (k : AccessKind) (n : Nat) (s : State) : State := s.setPma [⟨k, n, 0, 0xFFFFFFFF⟩]

/-- With nothing in the hidden set, no address is stale. -/
theorem not_isStale_of_empty (s : State) (h : s.stale = []) (a : Nat) : ¬ s.isStale a := by
  rintro ⟨v, hv⟩
  rw [h] at hv
  cases hv

theorem test_witness_DecodeOfEncode :
    (Instr.bne 31 31 (-4096)).wellFormed = true ∧ (Instr.bgeu 0 31 4094).wellFormed = true ∧
    (Instr.jal 31 (-1048576)).wellFormed = true ∧ (Instr.jal 31 1048574).wellFormed = true ∧
    (Instr.sw 31 31 (-2048)).wellFormed = true ∧ (Instr.csrrci 31 0xFFF 31).wellFormed = true := by decide

theorem test_witness_EncodeOfDecode :
    decode 0xF0FF8F8F#32 = .ok (.fence 0 15) ∧ decode 0xFFFFFF8F#32 = .error .unknownFence ∧
    decode 0xFFFF9F8F#32 = .ok .fencei ∧ decode 0xFFFFFFEF#32 = .ok (.jal 31 (-2)) := by decide

theorem test_witness_RegisterFields :
    decode 0xFFFF8FB3#32 = .error .unknownFunct7 ∧ decode 0x01FF8FB3#32 = .ok (.add 31 31 31) ∧
    destination (.add 31 31 31) = some 31 ∧ source1 (.add 31 31 31) = some 31 ∧ source2 (.add 31 31 31) = some 31 ∧
    SameOutside 7 5 0x01FF8033#32 0x01FF8FB3#32 ∧ SameOutside 15 5 0x01F00FB3#32 0x01FF8FB3#32 ∧
    SameOutside 20 5 0x000F8FB3#32 0x01FF8FB3#32 := by
  refine ⟨by decide, by decide, by decide, by decide, by decide, ?_, ?_, ?_⟩ <;> intro k hk <;>
    rcases Nat.lt_or_ge k 32 with h | h <;> (try (interval_cases k <;> first | rfl | omega)) <;>
    rw [BitVec.getLsbD_of_ge _ _ h, BitVec.getLsbD_of_ge _ _ h]

theorem test_witness_UpperAndJumpFormats :
    opcodeOf 0xFFFFFFB7#32 = 0x37#7 ∧ opcodeOf 0x00000F97#32 = 0x17#7 ∧ opcodeOf 0x80000FEF#32 = 0x6F#7 ∧
    (0xFFFFFFB7#32).extractLsb' 7 5 ≠ 0#5 ∧ (0x00000F97#32).extractLsb' 7 5 ≠ 0#5 ∧ State.reset.pc = 0#32 := by decide

theorem test_witness_ShiftsAreAsDefined : 0 < 32 ∧ 31 < 32 := by decide

theorem test_witness_StepRunsTheDecodedInstruction :
    (codeAt 0xFFFFFFFC 0x00629863).priv = .machine ∧ (codeAt 0xFFFFFFFC 0x00629863).pc.toNat % 4 = 0 ∧
    (codeAt 0xFFFFFFFC 0x00629863).pma (codeAt 0xFFFFFFFC 0x00629863).pc 4 .fetch = true ∧
    (∀ k < 4, ¬ (codeAt 0xFFFFFFFC 0x00629863).isStale (byteAddr (codeAt 0xFFFFFFFC 0x00629863).pc k)) ∧
    HoldsBytes (codeAt 0xFFFFFFFC 0x00629863) (codeAt 0xFFFFFFFC 0x00629863).pc 4
      (fun k => (0x00629863#32).extractLsb' (8 * k) 8) ∧
    decode 0x00629863#32 = .ok (.bne 5 6 16) :=
  ⟨by decide, by decide, by decide, fun _ _ => not_isStale_of_empty _ rfl _, by unfold HoldsBytes; decide, by decide⟩

/-- The word at the pc rewritten with itself: its bytes are stale, and either choice delivers them. -/
def rewritten : State := (codeAt 0x1000 0x13).memWrite 0x1000 1 0x13

theorem rewritten_fetch : rewritten.fetchWord = .ok 0x13#32 := by
  have h : rewritten.fetchByte 0x1000 0 = some 0x13 := by
    show ([some 0x13, some 0x13] : List (Option Byte)).getD (Config.staleChoice 0 0 % 2) (some 0x13) = some 0x13
    rcases Nat.mod_two_eq_zero_or_one (Config.staleChoice 0 0) with h | h <;> rw [h] <;> rfl
  have h0 : rewritten.fetchByte (byteAddr rewritten.pc 0) 0 = some 0x13 := h
  unfold State.fetchWord
  rw [h0]
  rfl

theorem test_witness_StepRunsTheDeliveredWord_fresh :
    (codeAt 0x1000 0x13).priv = .machine ∧ (codeAt 0x1000 0x13).pc.toNat % 4 = 0 ∧
    (codeAt 0x1000 0x13).pma (codeAt 0x1000 0x13).pc 4 .fetch = true ∧ (codeAt 0x1000 0x13).fetchWord = .ok 0x13#32 ∧
    decode 0x13#32 = .ok (.addi 0 0 0) ∧ ∀ k < 4, ¬ (codeAt 0x1000 0x13).isStale (byteAddr (codeAt 0x1000 0x13).pc k) :=
  ⟨by decide, by decide, by decide, by decide, by decide, fun _ _ => not_isStale_of_empty _ rfl _⟩

theorem test_witness_StepRunsTheDeliveredWord_stale :
    rewritten.priv = .machine ∧ rewritten.pc.toNat % 4 = 0 ∧ rewritten.pma rewritten.pc 4 .fetch = true ∧
    rewritten.fetchWord = .ok 0x13#32 ∧ decode 0x13#32 = .ok (.addi 0 0 0) ∧
    ∃ k < 4, rewritten.isStale (byteAddr rewritten.pc k) :=
  ⟨by decide, by decide, by decide, rewritten_fetch, by decide, 0, by decide, some 0x13, by decide⟩

theorem test_witness_FetchDeliversAHeldByte : ¬ State.reset.isStale 0xFFFFFFFF := not_isStale_of_empty _ rfl _

theorem test_witness_MisalignedOrRefusedFetchTraps :
    ((State.reset.setPc 1).priv = .machine ∧ (State.reset.setPc 1).pc.toNat % 4 ≠ 0) ∧
    ((State.reset.setPc 0xFFFFFFFF).priv = .machine ∧ (State.reset.setPc 0xFFFFFFFF).pc.toNat % 4 ≠ 0) ∧
    ((refusing .fetch 4 State.reset).priv = .machine ∧ (refusing .fetch 4 State.reset).pc.toNat % 4 = 0 ∧
      (refusing .fetch 4 State.reset).pma (refusing .fetch 4 State.reset).pc 4 .fetch = false) := by decide

theorem test_witness_IllegalWordTraps :
    (codeAt 0x1000 0x02000033).priv = .machine ∧ (codeAt 0x1000 0x02000033).pc.toNat % 4 = 0 ∧
    (codeAt 0x1000 0x02000033).pma (codeAt 0x1000 0x02000033).pc 4 .fetch = true ∧
    (codeAt 0x1000 0x02000033).fetchWord = .ok 0x02000033#32 ∧
    decode 0x02000033#32 = .error .unknownFunct7 := by decide

/-- Only the first three bytes of the word at the pc hold values. -/
def threeBytes : State := State.reset.setMem [(0, 0x13), (1, 0), (2, 0)]

theorem test_witness_FetchOfNoValueStops :
    threeBytes.priv = .machine ∧ threeBytes.pc.toNat % 4 = 0 ∧ threeBytes.pma threeBytes.pc 4 .fetch = true ∧
    ∃ k < 4, ¬ threeBytes.isStale (byteAddr threeBytes.pc k) ∧ threeBytes.mem.byteAt (byteAddr threeBytes.pc k) = none :=
  ⟨by decide, by decide, by decide, 3, by decide, not_isStale_of_empty _ rfl _, by decide⟩

theorem test_witness_OtherModesAreRefused :
    (State.reset.setPriv .user).priv ≠ .machine ∧ (State.reset.setPriv .supervisor).priv ≠ .machine := by decide

/-- A step that answers a next state: the premise of the statements about every step. -/
theorem test_witness_step_next :
    (codeAt 0x1000 0x13).Inv ∧ step (codeAt 0x1000 0x13) = .next ((codeAt 0x1000 0x13).setPc 0x1004) ∧
    ((codeAt 0x1000 0x13).mem.byteAt 0x1003).isSome = true :=
  ⟨by decide, rfl, by decide⟩

theorem test_witness_SelfLoopSpinsForEver :
    (codeAt 0x1000 0x6F).priv = .machine ∧ (codeAt 0x1000 0x6F).pc.toNat % 4 = 0 ∧
    (codeAt 0x1000 0x6F).pma (codeAt 0x1000 0x6F).pc 4 .fetch = true ∧ (codeAt 0x1000 0x6F).atSelfLoop := by decide

/-- Two predicates for `HALT`: with the spec's own a run at a self loop has ended before its first step; with a predicate
on the pc it ends after the step that reaches that pc, and is running while its steps do not suffice. -/
theorem test_runUntil :
    runUntil State.atSelfLoop 0 (codeAt 0x1000 0x6F) = .halted (codeAt 0x1000 0x6F) ∧
    runUntil (fun s => s.pc == 0x1004) 1 (codeAt 0x1000 0x13) = .halted ((codeAt 0x1000 0x13).setPc 0x1004) ∧
    runUntil (fun s => s.pc == 0x1004) 0 (codeAt 0x1000 0x13) = .running (codeAt 0x1000 0x13) ∧
    runUntil (fun _ => false) 2 (codeAt 0x1000 0x13) = .fault (.fetchOfUnwrittenByte 0x1004) := ⟨rfl, rfl, rfl, rfl⟩

theorem test_witness_OnlyTransfersAndTrapsMoveThePc :
    (exec (.jal 0 8) State.reset = .next (State.reset.setPc 8) ∧ (State.reset.setPc 8).pc ≠ State.reset.pc + 4) ∧
    (exec .ebreak State.reset = .next (takeTrap .breakpoint 0 State.reset) ∧
      (takeTrap .breakpoint 0 State.reset).pc ≠ State.reset.pc + 4) :=
  ⟨⟨rfl, by decide⟩, rfl, by decide⟩

theorem test_witness_OnlyTheDestinationRegisterChanges :
    exec (.addi 5 0 1) State.reset = .next ((State.reset.setX 5 1).setPc 4) ∧
    destination (.addi 5 0 1) ≠ some 31 := ⟨rfl, by decide⟩

theorem test_witness_OnlyStoresAndFenceiChangeMemoryState :
    exec (.fence 15 15) rewritten = .next rewritten.advance ∧ isStore (.fence 15 15) = false ∧
    (Instr.fence 15 15) ≠ .fencei ∧ rewritten.isStale 0x1000 ∧ rewritten.advance.isStale 0x1000 :=
  ⟨rfl, by decide, by decide, ⟨some 0x13, by decide⟩, some 0x13, by decide⟩

theorem test_witness_OnlyCsrInstructionsAndTrapsWriteCsrs :
    exec .ecall State.reset = .next (takeTrap .ecallFromM 0 State.reset) ∧ isCsr .ecall = false ∧
    Csr.mtvec ∉ [Csr.mepc, Csr.mcause, Csr.mtval, Csr.mstatus] ∧
    (takeTrap .ecallFromM 0 State.reset).csrValue .mcause ≠ State.reset.csrValue .mcause :=
  ⟨rfl, by decide, by decide, by decide⟩

theorem test_witness_StoreCsrsHaveNoEffect :
    Csr.satp.cls = .store ∧ step (codeAt 0x1000 0x13) = .next ((codeAt 0x1000 0x13).setPc 0x1004) ∧
    ∀ w i, (codeAt 0x1000 0x13).fetchWord = .ok w → decode w = .ok i → csrAddress i ≠ some Csr.satp.addr := by
  refine ⟨rfl, rfl, fun w i hw hi => ?_⟩
  cases hw.symm.trans (show (codeAt 0x1000 0x13).fetchWord = .ok 0x13#32 by decide)
  cases hi.symm.trans (show decode 0x13#32 = .ok (.addi 0 0 0) by decide)
  simp [csrAddress]

/-- With a CSR instruction on another register: `mcounteren` does not gate a read of `mcycle`. -/
theorem test_witness_StoreCsrsHaveNoEffect_csr :
    Csr.mcounteren.cls = .store ∧ (∃ t, step (codeAt 0x1000 0xB00022F3) = .next t) ∧
    ∀ w i, (codeAt 0x1000 0xB00022F3).fetchWord = .ok w → decode w = .ok i → csrAddress i ≠ some Csr.mcounteren.addr := by
  refine ⟨rfl, ⟨_, rfl⟩, fun w i hw hi => ?_⟩
  cases hw.symm.trans (show (codeAt 0x1000 0xB00022F3).fetchWord = .ok 0xB00022F3#32 by decide)
  cases hi.symm.trans (show decode 0xB00022F3#32 = .ok (.csrrs 5 0xB00 0) by decide)
  decide

theorem test_witness_EcallEbreakTrap :
    (State.reset.setPriv .user).priv = .user ∧ (State.reset.setPriv .supervisor).priv = .supervisor ∧
    State.reset.priv = .machine := by decide

theorem test_witness_branches : (0x1000#13).getLsbD 0 = false ∧ (0x0FFE#13).getLsbD 0 = false := by decide

theorem test_witness_JalLinksAndJumps : (0x100000#21).getLsbD 0 = false ∧ (0x0FFFFE#21).getLsbD 0 = false := by decide

theorem test_witness_MisalignedTargetTrapsAtTheNextStep :
    State.reset.priv = .machine ∧ transferTarget State.reset (.jal 1 2) = some ((State.reset.setX 1 4).setPc 2).pc ∧
    exec (.jal 1 2) State.reset = .next ((State.reset.setX 1 4).setPc 2) ∧
    ((State.reset.setX 1 4).setPc 2).pc.toNat % 4 ≠ 0 ∧ destination (.jal 1 2) = some 1 ∧ (1 : Reg) ≠ 0#5 :=
  ⟨rfl, rfl, rfl, by decide, rfl, by decide⟩

theorem test_witness_AlignedAccessesDoNotWrap :
    (4 ∈ [1, 2, 4] ∧ (0xFFFFFFFC#32).toNat % 4 = 0 ∧ 3 < 4) ∧ (2 ∈ [1, 2, 4] ∧ (0xFFFFFFFE#32).toNat % 2 = 0 ∧ 1 < 2) ∧
    (1 ∈ [1, 2, 4] ∧ (0xFFFFFFFF#32).toNat % 1 = 0 ∧ 0 < 1) := by decide

/-- The last four bytes of the address space hold values; `x6` is their address plus 2047. -/
def topWord : State := (State.reset.setX 6 0x7FB).setMem
  [(0xFFFFFFFC, 0x80), (0xFFFFFFFD, 0x7F), (0xFFFFFFFE, 0xFF), (0xFFFFFFFF, 0x80)]

theorem test_witness_LoadsComplete_byte :
    topWord.pma (effectiveAddress topWord 6 (-2044)) 1 .load = true ∧
    HoldsBytes topWord (effectiveAddress topWord 6 (-2044)) 1 (fun _ => 0x80) := by unfold HoldsBytes; decide

theorem test_witness_LoadsComplete_halfword :
    (effectiveAddress topWord 6 (-2045)).toNat % 2 = 0 ∧ topWord.pma (effectiveAddress topWord 6 (-2045)) 2 .load = true ∧
    HoldsBytes topWord (effectiveAddress topWord 6 (-2045)) 2 (fun k => if k = 0 then 0xFF else 0x80) := by
  unfold HoldsBytes; decide

theorem test_witness_LoadsComplete_word :
    (effectiveAddress topWord 6 (-2047)).toNat % 4 = 0 ∧ topWord.pma (effectiveAddress topWord 6 (-2047)) 4 .load = true ∧
    HoldsBytes topWord (effectiveAddress topWord 6 (-2047)) 4
      (fun k => if k = 0 then 0x80 else if k = 1 then 0x7F else if k = 2 then 0xFF else 0x80) := by
  unfold HoldsBytes; decide

theorem test_witness_MisalignedAndRefusedLoadsTrap_misaligned :
    (effectiveAddress State.reset 0 1).toNat % 2 ≠ 0 ∧ (effectiveAddress State.reset 0 (-2)).toNat % 4 ≠ 0 := by decide

theorem test_witness_MisalignedAndRefusedLoadsTrap_refused :
    (refusing .load 1 State.reset).pma (effectiveAddress (refusing .load 1 State.reset) 0 (-1)) 1 .load = false ∧
    ((effectiveAddress (refusing .load 2 State.reset) 0 (-2)).toNat % 2 = 0 ∧
      (refusing .load 2 State.reset).pma (effectiveAddress (refusing .load 2 State.reset) 0 (-2)) 2 .load = false) ∧
    ((effectiveAddress (refusing .load 4 State.reset) 0 (-4)).toNat % 4 = 0 ∧
      (refusing .load 4 State.reset).pma (effectiveAddress (refusing .load 4 State.reset) 0 (-4)) 4 .load = false) := by
  decide

theorem test_witness_LoadOfNoValueStops :
    (State.reset.pma (effectiveAddress State.reset 0 (-1)) 1 .load = true ∧
      State.reset.mem.byteAt (byteAddr (effectiveAddress State.reset 0 (-1)) 0) = none) ∧
    ((effectiveAddress threeBytes 0 2).toNat % 2 = 0 ∧ threeBytes.pma (effectiveAddress threeBytes 0 2) 2 .load = true ∧
      ∃ k < 2, threeBytes.mem.byteAt (byteAddr (effectiveAddress threeBytes 0 2) k) = none) ∧
    ((effectiveAddress threeBytes 0 0).toNat % 4 = 0 ∧ threeBytes.pma (effectiveAddress threeBytes 0 0) 4 .load = true ∧
      ∃ k < 4, threeBytes.mem.byteAt (byteAddr (effectiveAddress threeBytes 0 0) k) = none) := by decide

theorem test_witness_StoresComplete :
    State.reset.pma (effectiveAddress State.reset 0 (-1)) 1 .store = true ∧
    ((effectiveAddress State.reset 0 (-2)).toNat % 2 = 0 ∧
      State.reset.pma (effectiveAddress State.reset 0 (-2)) 2 .store = true) ∧
    ((effectiveAddress State.reset 0 (-4)).toNat % 4 = 0 ∧
      State.reset.pma (effectiveAddress State.reset 0 (-4)) 4 .store = true) := by decide

theorem test_witness_MisalignedAndRefusedStoresTrap :
    (effectiveAddress State.reset 0 (-1)).toNat % 2 ≠ 0 ∧ (effectiveAddress State.reset 0 2).toNat % 4 ≠ 0 ∧
    (refusing .store 1 State.reset).pma (effectiveAddress (refusing .store 1 State.reset) 0 (-1)) 1 .store = false ∧
    ((effectiveAddress (refusing .store 2 State.reset) 0 (-2)).toNat % 2 = 0 ∧
      (refusing .store 2 State.reset).pma (effectiveAddress (refusing .store 2 State.reset) 0 (-2)) 2 .store = false) ∧
    ((effectiveAddress (refusing .store 4 State.reset) 0 (-4)).toNat % 4 = 0 ∧
      (refusing .store 4 State.reset).pma (effectiveAddress (refusing .store 4 State.reset) 0 (-4)) 4 .store = false) := by
  decide

theorem test_witness_NarrowReadsSeeTheWideStore :
    (effectiveAddress State.reset 0 (-4)).toNat % 4 = 0 ∧
    State.reset.pma (effectiveAddress State.reset 0 (-4)) 4 .store = true ∧
    exec (.sw 0 0 (-4)) State.reset = .next (State.reset.memWrite 0xFFFFFFFC 4 0).advance :=
  ⟨by decide, by decide, rfl⟩

theorem test_witness_FenceiFence :
    (opcodeOf 0xFFFF9F8F#32 = 0x0F#7 ∧ funct3Of 0xFFFF9F8F#32 = 1#3) ∧
    (opcodeOf 0xFFFF8F8F#32 = 0x0F#7 ∧ funct3Of 0xFFFF8F8F#32 = 0#3) := by decide

/-- For CsrWritesComplete, CsrSetsComplete and CsrClearsComplete. -/
theorem test_witness_holdsWrites : Csr.mtvec.holdsWrites ∧ Csr.mstatus.holdsWrites ∧ Csr.satp.holdsWrites :=
  ⟨.inl rfl, .inr (.inl rfl), .inr (.inr rfl)⟩

/-- For CounterAccessesComplete and ReadOnlyCounterAccesses. -/
theorem test_witness_counters :
    Csr.mcycle.cls = .counter ∧ Csr.mhpmcounter5.cls = .counter ∧ Csr.ucycle.cls = .roCounter ∧
    Csr.uinstreth.cls = .roCounter ∧ State.reset.readX 31 = 0#32 ∧ (State.reset.setX 31 1).readX 31 ≠ 0#32 ∧
    (0 : BitVec 5) = 0#5 ∧ (31 : BitVec 5) ≠ 0#5 := by decide

/-- A machine whose `misa` is this value and whose `x31` is that one. -/
def misaHolding (m v : Word) : State := (State.reset.setCsr { State.reset.csr with misa := m }).setX 31 v

/-- The first premise of AccessesMisa, for the six forms in the statement's order. -/
theorem test_witness_MisaAccesses_same :
    (misaHolding 5 5).readX 31 = (misaHolding 5 5).csrValue .misa ∧
    (misaHolding 5 4).csrValue .misa ||| (misaHolding 5 4).readX 31 = (misaHolding 5 4).csrValue .misa ∧
    (misaHolding 5 2).csrValue .misa &&& ~~~ (misaHolding 5 2).readX 31 = (misaHolding 5 2).csrValue .misa ∧
    BitVec.ofNat 32 (31#5).toNat = (misaHolding 31 0).csrValue .misa ∧
    (misaHolding 31 0).csrValue .misa ||| BitVec.ofNat 32 (31#5).toNat = (misaHolding 31 0).csrValue .misa ∧
    (misaHolding 31 0).csrValue .misa &&& ~~~ BitVec.ofNat 32 (0#5).toNat = (misaHolding 31 0).csrValue .misa := by decide

/-- Its second premise. -/
theorem test_witness_MisaAccesses_changed :
    (misaHolding 5 4).readX 31 ≠ (misaHolding 5 4).csrValue .misa ∧
    (misaHolding 5 2).csrValue .misa ||| (misaHolding 5 2).readX 31 ≠ (misaHolding 5 2).csrValue .misa ∧
    (misaHolding 5 4).csrValue .misa &&& ~~~ (misaHolding 5 4).readX 31 ≠ (misaHolding 5 4).csrValue .misa ∧
    BitVec.ofNat 32 (0#5).toNat ≠ (misaHolding 31 0).csrValue .misa ∧
    (misaHolding 30 0).csrValue .misa ||| BitVec.ofNat 32 (31#5).toNat ≠ (misaHolding 30 0).csrValue .misa ∧
    (misaHolding 31 0).csrValue .misa &&& ~~~ BitVec.ofNat 32 (31#5).toNat ≠ (misaHolding 31 0).csrValue .misa := by decide

/-- Addresses that are none of the 38: the first and the last there are, one between two rows, one past a row. -/
theorem test_witness_UnlistedCsrTraps : ∀ a ∈ [0x000#12, 0xFFF#12, 0x307#12, 0xC81#12],
    a ∉ ([
      0x300#12, 0x301#12, 0x302#12, 0x303#12, 0x304#12, 0x305#12, 0x306#12, 0x340#12, 0x341#12, 0x342#12,
      0x343#12, 0x344#12, 0x3A0#12, 0x3B0#12, 0x3B1#12, 0x3B2#12, 0x3B3#12, 0xB00#12, 0xB02#12, 0xB03#12,
      0xB04#12, 0xB05#12, 0x323#12, 0x324#12, 0x325#12, 0xC00#12, 0xC02#12, 0xC80#12, 0xC82#12, 0x100#12,
      0x104#12, 0x105#12, 0x140#12, 0x141#12, 0x142#12, 0x143#12, 0x144#12, 0x180#12] : List CsrAddr) := by decide

end Sys2Proof.Tests
end

section
/-!
The three shifts in integers (00_scope.md R8).
-/
namespace Sys2Proof.Machine

theorem shiftLeft_toNat (v : Word) (n : Nat) : (shiftLeft v n).toNat = v.toNat * 2 ^ n % 2 ^ 32 := by
  rw [shiftLeft, BitVec.toNat_shiftLeft, Nat.shiftLeft_eq]

theorem shiftRightLogical_toNat (v : Word) (n : Nat) : (shiftRightLogical v n).toNat = v.toNat / 2 ^ n := by
  rw [shiftRightLogical, BitVec.toNat_ushiftRight, Nat.shiftRight_eq_div_pow]

/-- Floor division keeps a signed word in range, so nothing wraps. -/
theorem shiftRightArith_toInt (v : Word) (n : Nat) : (shiftRightArith v n).toInt = v.toInt / 2 ^ n := by
  rw [shiftRightArith, BitVec.toInt_sshiftRight, Int.shiftRight_eq_div_pow, Int.natCast_pow, Nat.cast_ofNat]

theorem shiftRightArith_eq_ofInt (v : Word) (n : Nat) : shiftRightArith v n = BitVec.ofInt 32 (v.toInt / 2 ^ n) := by
  rw [← shiftRightArith_toInt, BitVec.ofInt_toInt]

/-- Settles O41: each shift has its integer value for every amount, so in particular for those below 32. -/
theorem shiftsAreAsDefined : Obligations.ShiftsAreAsDefined :=
  fun v n _ => ⟨shiftLeft_toNat v n, shiftRightLogical_toNat v n, shiftRightArith_eq_ofInt v n⟩

end Sys2Proof.Machine
end

section
/-!
The three register fields (30_encoding.md R136): a decoded instruction takes its registers from the fields of its
word, and no register field reaches the opcode, funct3 or funct7, which choose the row of every word but ECALL's and
EBREAK's.
-/
namespace Sys2Proof.Machine

/-! ## A decoded instruction takes its registers from the fields of the word -/

/-- Every register the instruction names is the one in that register's field of the word. -/
structure RegistersFrom (w : Word) (i : Instr) : Prop where
  rd : ∀ r, destination i = some r → r = rdOf w
  rs1 : ∀ r, source1 i = some r → r = rs1Of w
  rs2 : ∀ r, source2 i = some r → r = rs2Of w

/-- If the decoder's answer is an instruction, that takes its registers from the fields of `w`. -/
def AnswersFrom (w : Word) (a : Except DecodeReject Instr) : Prop := ∀ i, a = .ok i → RegistersFrom w i

theorem AnswersFrom.ite {w : Word} {c : Prop} [Decidable c] {a b : Except DecodeReject Instr} (ha : AnswersFrom w a)
    (hb : AnswersFrom w b) : AnswersFrom w (if c then a else b) := by
  split
  · exact ha
  · exact hb

/-- Each leaf of the decoder rejects the word or builds the instruction from `rdOf w`, `rs1Of w` and `rs2Of w`. -/
theorem answersFrom_decode (w : Word) : AnswersFrom w (decode w) := by
  unfold decode decodeRegister decodeImmediate decodeLoad decodeStore decodeBranch decodeFence decodeSystem
  repeat' apply AnswersFrom.ite
  all_goals rintro _ ⟨⟩
  all_goals constructor <;> simp [destination, source1, source2]

/-! ## The fields that choose the row -/

/-- The two words have the same opcode, funct3 and funct7. -/
structure SameFunct (v w : Word) : Prop where
  opcode : opcodeOf v = opcodeOf w
  funct3 : funct3Of v = funct3Of w
  funct7 : funct7Of v = funct7Of w

/-- The word has opcode 0x73 and funct3 0, where ECALL and EBREAK are recognised as whole words (R135). -/
def IsEnvironmentWord (w : Word) : Prop := opcodeOf w = 0x73#7 ∧ funct3Of w = 0#3

/-- Such a word is ECALL, EBREAK or no instruction. -/
theorem no_registers_of_isEnvironmentWord (w : Word) (i : Instr) (hw : IsEnvironmentWord w) (h : decode w = .ok i) :
    destination i = none ∧ source1 i = none ∧ source2 i = none := by
  obtain ⟨hop, hf3⟩ := hw
  have hsys : decode w = decodeSystem w := by simp [decode, hop]
  rw [hsys, decodeSystem, if_pos hf3] at h
  split_ifs at h <;> cases h <;> exact ⟨rfl, rfl, rfl⟩

/-- Two answers of the decoder are both rejections for one reason, or instructions of one row. -/
def SameRow (a b : Except DecodeReject Instr) : Prop := a.map Instr.row = b.map Instr.row

theorem SameRow.ite {c : Prop} [Decidable c] {a a' b b' : Except DecodeReject Instr} (ha : c → SameRow a a')
    (hb : ¬ c → SameRow b b') : SameRow (if c then a else b) (if c then a' else b') := by
  split
  · exact ha ‹_›
  · exact hb ‹_›

theorem SameRow.decodesLike {v w : Word} {i : Instr} (hrow : SameRow (decode v) (decode w)) (h : decode w = .ok i) :
    DecodesLike v i := by
  unfold SameRow at hrow
  rw [h] at hrow
  cases hv : decode v with
  | error e => rw [hv] at hrow; cases hrow
  | ok j => rw [hv] at hrow; exact ⟨j, hv, Except.ok.inj hrow⟩

/-- Under opcode 0x73, any funct3 but 0 chooses the row by itself (R133). -/
theorem sameRow_decodeSystem {v w : Word} (hf3 : funct3Of v = funct3Of w) (h0 : funct3Of w ≠ 0#3) :
    SameRow (decodeSystem v) (decodeSystem w) := by
  unfold decodeSystem
  rw [hf3, if_neg h0, if_neg h0]
  repeat' refine SameRow.ite (fun _ => ?_) fun _ => ?_
  all_goals rfl

/-- Every condition the decoder tests, but for ECALL and EBREAK, is on the opcode, funct3 or funct7. -/
theorem SameFunct.sameRow_decode {v w : Word} (h : SameFunct v w) (hw : ¬ IsEnvironmentWord w) :
    SameRow (decode v) (decode w) := by
  obtain ⟨hop, hf3, hf7⟩ := h
  have hsys (h73 : opcodeOf w = 0x73#7) : SameRow (decodeSystem v) (decodeSystem w) :=
    sameRow_decodeSystem hf3 fun h0 => hw ⟨h73, h0⟩
  unfold decode decodeRegister decodeImmediate decodeLoad decodeStore decodeBranch decodeFence
  rw [hop, hf3, hf7]
  repeat' refine SameRow.ite (fun _ => ?_) fun _ => ?_
  any_goals rfl
  exact hsys ‹_›

/-! ## No register field reaches the fields that choose the row -/

/-- A field that does not meet the bits in which two words differ is the same in both. -/
theorem SameOutside.extractLsb'_eq {lo n : Nat} {v w : Word} (h : SameOutside lo n v w) (start len : Nat)
    (hd : start + len ≤ lo ∨ lo + n ≤ start) : v.extractLsb' start len = w.extractLsb' start len := by
  apply BitVec.eq_of_getLsbD_eq
  intro k hk
  have hbit : v.getLsbD (start + k) = w.getLsbD (start + k) := h _ (by omega)
  simp only [BitVec.getLsbD_extractLsb', hbit]

/-- The three places a register field has. -/
def IsRegisterField (lo : Nat) : Prop := lo = 7 ∨ lo = 15 ∨ lo = 20

/-- The register fields lie between the opcode and funct3, and between funct3 and funct7. -/
theorem SameOutside.sameFunct {lo : Nat} {v w : Word} (h : SameOutside lo 5 v w) (hlo : IsRegisterField lo) :
    SameFunct v w := by
  unfold IsRegisterField at hlo
  exact ⟨h.extractLsb'_eq 0 7 (by omega), h.extractLsb'_eq 12 3 (by omega), h.extractLsb'_eq 25 7 (by omega)⟩

theorem decodesLike_of_sameOutside {lo : Nat} {v w : Word} {i : Instr} (hlo : IsRegisterField lo)
    (hw : ¬ IsEnvironmentWord w) (h : decode w = .ok i) (hv : SameOutside lo 5 v w) : DecodesLike v i :=
  ((hv.sameFunct hlo).sameRow_decode hw).decodesLike h

/-- Settles O6: by cases on whether the word is one of opcode 0x73 and funct3 0, where no instruction names a
register. -/
theorem registerFields : Obligations.RegisterFields := by
  intro w i h
  by_cases hw : IsEnvironmentWord w
  · obtain ⟨hrd, hrs1, hrs2⟩ := no_registers_of_isEnvironmentWord w i hw h
    simp [hrd, hrs1, hrs2]
  · obtain ⟨hrd, hrs1, hrs2⟩ := answersFrom_decode w i h
    exact ⟨fun r hr => ⟨hrd r hr, fun _ => decodesLike_of_sameOutside (.inl rfl) hw h⟩,
      fun r hr => ⟨hrs1 r hr, fun _ => decodesLike_of_sameOutside (.inr (.inl rfl)) hw h⟩,
      fun r hr => ⟨hrs2 r hr, fun _ => decodesLike_of_sameOutside (.inr (.inr rfl)) hw h⟩⟩

end Sys2Proof.Machine
end

section
/-!
The U-type and the J-type format (30_encoding.md R125, R126, R130).
-/
namespace Sys2Proof.Machine

/-! ## What the opcodes 0x37, 0x17 and 0x6F decode to -/

theorem decode_of_opcode_lui (w : Word) (h : opcodeOf w = 0x37#7) : decode w = .ok (.lui (rdOf w) (imm20Of w)) := by
  simp [decode, h]

theorem decode_of_opcode_auipc (w : Word) (h : opcodeOf w = 0x17#7) :
    decode w = .ok (.auipc (rdOf w) (imm20Of w)) := by
  simp [decode, h]

theorem decode_of_opcode_jal (w : Word) (h : opcodeOf w = 0x6F#7) :
    decode w = .ok (.jal (rdOf w) (jumpOffsetOf w)) := by
  simp [decode, h]

/-! ## What LUI and AUIPC write -/

theorem exec_lui (rd : Reg) (imm : BitVec 20) (s : State) :
    exec (.lui rd imm) s = writeBack rd (upper20 imm) s := rfl

theorem exec_auipc (rd : Reg) (imm : BitVec 20) (s : State) :
    exec (.auipc rd imm) s = writeBack rd (s.pc + upper20 imm) s := rfl

/-- A write-back completes, and its destination then reads as what was written. -/
theorem writeBack_readX (rd : Reg) (v : Word) (s : State) :
    ∃ t, writeBack rd v s = .next t ∧ (rd ≠ 0#5 → t.readX rd = v) :=
  ⟨_, writeBack_eq rd v s, fun h => by rw [State.advance_readX, State.readX_setX_self s rd v h]⟩

/-! ## The fields of the JAL offset -/

theorem jumpOffsetOf_bit20 (w : Word) : (jumpOffsetOf w).extractLsb' 20 1 = w.extractLsb' 31 1 := by
  unfold jumpOffsetOf
  iterate 4 rw [extract_append_high _ _ _ _ (by decide)]
  exact extract_whole _

theorem jumpOffsetOf_bits10_1 (w : Word) : (jumpOffsetOf w).extractLsb' 1 10 = w.extractLsb' 21 10 := by
  unfold jumpOffsetOf
  rw [extract_append_high _ _ _ _ (by decide), extract_append_low _ _ _ _ (by decide)]
  exact extract_whole _

theorem jumpOffsetOf_bit11 (w : Word) : (jumpOffsetOf w).extractLsb' 11 1 = w.extractLsb' 20 1 := by
  unfold jumpOffsetOf
  iterate 2 rw [extract_append_high _ _ _ _ (by decide)]
  rw [extract_append_low _ _ _ _ (by decide)]
  exact extract_whole _

theorem jumpOffsetOf_bits19_12 (w : Word) : (jumpOffsetOf w).extractLsb' 12 8 = w.extractLsb' 12 8 := by
  unfold jumpOffsetOf
  iterate 3 rw [extract_append_high _ _ _ _ (by decide)]
  rw [extract_append_low _ _ _ _ (by decide)]
  exact extract_whole _

/-- Settles O7, one format at a time. -/
theorem upperAndJumpFormats : Obligations.UpperAndJumpFormats := by
  intro w
  refine ⟨fun hop => ⟨decode_of_opcode_lui w hop, fun s => ?_⟩,
    fun hop => ⟨decode_of_opcode_auipc w hop, fun s hpc => ?_⟩,
    fun hop => ⟨jumpOffsetOf w, decode_of_opcode_jal w hop, jumpOffsetOf_bit20 w, jumpOffsetOf_bits10_1 w,
      jumpOffsetOf_bit11 w, jumpOffsetOf_bits19_12 w⟩⟩
  · rw [exec_lui]
    exact writeBack_readX _ _ s
  · rw [exec_auipc, hpc, BitVec.zero_add]
    exact writeBack_readX _ _ s

end Sys2Proof.Machine
end

section
/-!
Decoding and encoding agree (30_encoding.md R120 to R145). A word is put together again from its fields, and the rows
of the opcode table say no more than which opcode, funct3 and funct7 a word has.
-/
namespace Sys2Proof.Machine

/-! ## Which part of the decoder an opcode goes to -/

theorem decode_of_opcode_register {w : Word} (h : opcodeOf w = 0x33#7) : decode w = decodeRegister w := by
  simp [decode, h]

theorem decode_of_opcode_immediate {w : Word} (h : opcodeOf w = 0x13#7) : decode w = decodeImmediate w := by
  simp [decode, h]

theorem decode_of_opcode_load {w : Word} (h : opcodeOf w = 0x03#7) : decode w = decodeLoad w := by
  simp [decode, h]

theorem decode_of_opcode_store {w : Word} (h : opcodeOf w = 0x23#7) : decode w = decodeStore w := by
  simp [decode, h]

theorem decode_of_opcode_branch {w : Word} (h : opcodeOf w = 0x63#7) : decode w = decodeBranch w := by
  simp [decode, h]

theorem decode_of_opcode_jalr {w : Word} (h : opcodeOf w = 0x67#7) :
    decode w = if funct3Of w = 0#3 then .ok (.jalr (rdOf w) (rs1Of w) (imm12Of w)) else .error .unknownJalr := by
  simp [decode, h]

theorem decode_of_opcode_fence {w : Word} (h : opcodeOf w = 0x0F#7) : decode w = decodeFence w := by
  simp [decode, h]

theorem decode_of_opcode_system {w : Word} (h : opcodeOf w = 0x73#7) : decode w = decodeSystem w := by
  simp [decode, h]

/-! ## Decoding an encoded instruction -/

/-- An encoded shift by immediate has its amount in the place of `rs2` (R132), so the R-type fields serve it too. -/
theorem decode_encode (i : Instr) (h : i.wellFormed = true) : decode (encode i) = .ok i := by
  cases i with
  | bne _ _ off | beq _ _ off | blt _ _ off | bge _ _ off | bltu _ _ off | bgeu _ _ off =>
    have heven : off.getLsbD 0 = false := by simpa [Instr.wellFormed, branchOffsetOk] using h
    simp [encode, decode_of_opcode_branch, decodeBranch, branchOffsetOf_encodeB _ _ _ _ _ heven]
  | jal rd off =>
    have heven : off.getLsbD 0 = false := by simpa [Instr.wellFormed, jumpOffsetOk] using h
    simp [encode, decode_of_opcode_jal, jumpOffsetOf_encodeJ _ _ _ heven]
  | lui | auipc => simp [encode, decode_of_opcode_lui, decode_of_opcode_auipc]
  | add | sub | slt | sltu | xor | or | and | sra | srl | sll =>
    simp [encode, decode_of_opcode_register, decodeRegister]
  | addi | slti | sltiu | xori | ori | andi | srai | srli | slli =>
    simp [encode, decode_of_opcode_immediate, decodeImmediate]
  | jalr => simp [encode, decode_of_opcode_jalr]
  | lb | lh | lw | lbu | lhu => simp [encode, decode_of_opcode_load, decodeLoad]
  | sb | sh | sw => simp [encode, decode_of_opcode_store, decodeStore]
  | fence pred succ =>
    obtain ⟨hpred, hsucc⟩ := fenceFields_encodeI pred succ
    simp [encode, decode_of_opcode_fence, decodeFence, hpred, hsucc]
  | fencei => simp [encode, decode_of_opcode_fence, decodeFence]
  | csrrw | csrrs | csrrc | csrrwi | csrrsi | csrrci => simp [encode, decode_of_opcode_system, decodeSystem]
  | ecall | ebreak => rfl

/-- Settles O1, format by format. -/
theorem decodeOfEncode : Obligations.DecodeOfEncode := decode_encode

/-! ## A word put together again from its fields -/

theorem encodeR_of_fields {w : Word} {f7 : BitVec 7} {f3 : BitVec 3} {op : BitVec 7} (h7 : funct7Of w = f7)
    (h3 : funct3Of w = f3) (hop : opcodeOf w = op) : encodeR f7 (rs2Of w) (rs1Of w) f3 (rdOf w) op = w := by
  subst h7 h3 hop
  apply BitVec.eq_of_getLsbD_eq
  intro k hk
  simp only [encodeR, funct7Of, rs2Of, rs1Of, funct3Of, rdOf, opcodeOf, BitVec.getLsbD_append,
    BitVec.getLsbD_extractLsb']
  interval_cases k <;> simp

theorem encodeI_of_fields {w : Word} {f3 : BitVec 3} {op : BitVec 7} (h3 : funct3Of w = f3)
    (hop : opcodeOf w = op) : encodeI (imm12Of w) (rs1Of w) f3 (rdOf w) op = w := by
  subst h3 hop
  apply BitVec.eq_of_getLsbD_eq
  intro k hk
  simp only [encodeI, imm12Of, rs1Of, funct3Of, rdOf, opcodeOf, BitVec.getLsbD_append, BitVec.getLsbD_extractLsb']
  interval_cases k <;> simp

theorem encodeS_of_fields {w : Word} {f3 : BitVec 3} {op : BitVec 7} (h3 : funct3Of w = f3)
    (hop : opcodeOf w = op) : encodeS (storeOffsetOf w) (rs2Of w) (rs1Of w) f3 op = w := by
  subst h3 hop
  apply BitVec.eq_of_getLsbD_eq
  intro k hk
  simp only [encodeS, storeOffsetOf, rs2Of, rs1Of, funct3Of, opcodeOf, BitVec.getLsbD_append,
    BitVec.getLsbD_extractLsb']
  interval_cases k <;> simp

theorem encodeB_of_fields {w : Word} {f3 : BitVec 3} {op : BitVec 7} (h3 : funct3Of w = f3)
    (hop : opcodeOf w = op) : encodeB (branchOffsetOf w) (rs2Of w) (rs1Of w) f3 op = w := by
  subst h3 hop
  apply BitVec.eq_of_getLsbD_eq
  intro k hk
  simp only [encodeB, branchOffsetOf, rs2Of, rs1Of, funct3Of, opcodeOf, BitVec.getLsbD_append,
    BitVec.getLsbD_extractLsb']
  interval_cases k <;> simp

theorem encodeU_of_fields {w : Word} {op : BitVec 7} (hop : opcodeOf w = op) :
    encodeU (imm20Of w) (rdOf w) op = w := by
  subst hop
  apply BitVec.eq_of_getLsbD_eq
  intro k hk
  simp only [encodeU, imm20Of, rdOf, opcodeOf, BitVec.getLsbD_append, BitVec.getLsbD_extractLsb']
  interval_cases k <;> simp

theorem encodeJ_of_fields {w : Word} {op : BitVec 7} (hop : opcodeOf w = op) :
    encodeJ (jumpOffsetOf w) (rdOf w) op = w := by
  subst hop
  apply BitVec.eq_of_getLsbD_eq
  intro k hk
  simp only [encodeJ, jumpOffsetOf, rdOf, opcodeOf, BitVec.getLsbD_append, BitVec.getLsbD_extractLsb']
  interval_cases k <;> simp

/-- A decoded branch offset has no bit 0 (R129). -/
theorem branchOffsetOk_branchOffsetOf (w : Word) : branchOffsetOk (branchOffsetOf w) = true := by
  simp only [branchOffsetOk, branchOffsetOf, BitVec.getLsbD_append]
  rfl

/-- A decoded JAL offset has no bit 0 (R131). -/
theorem jumpOffsetOk_jumpOffsetOf (w : Word) : jumpOffsetOk (jumpOffsetOf w) = true := by
  simp only [jumpOffsetOk, jumpOffsetOf, BitVec.getLsbD_append]
  rfl

/-! ## The masks of the opcode table -/

/-- The bits of the three masks of R140 that are made of whole fields. -/
theorem getLsbD_mask_opcode : ∀ k < 32, (0x0000007F#32).getLsbD k = decide (k < 7) := by decide

theorem getLsbD_mask_funct3 :
    ∀ k < 32, (0x0000707F#32).getLsbD k = (decide (k < 7) || (decide (12 ≤ k) && decide (k < 15))) := by decide

theorem getLsbD_mask_funct7 : ∀ k < 32, (0xFE00707F#32).getLsbD k =
    (decide (k < 7) || (decide (12 ≤ k) && decide (k < 15)) || decide (25 ≤ k)) := by decide

theorem extractLsb'_eq_iff (v w : Word) (lo n : Nat) :
    v.extractLsb' lo n = w.extractLsb' lo n ↔ ∀ k, lo ≤ k → k < lo + n → v.getLsbD k = w.getLsbD k := by
  constructor
  · intro h k hlo hn
    have hbit := congrArg (fun u => u.getLsbD (k - lo)) h
    have hk : k - lo < n := by omega
    simpa [BitVec.getLsbD_extractLsb', hk, Nat.add_sub_cancel' hlo] using hbit
  · intro h
    apply BitVec.eq_of_getLsbD_eq
    intro k hk
    simp [BitVec.getLsbD_extractLsb', h (lo + k) (by omega) (by omega)]

/-- Two words agree under a mask when they agree in the bits it has. -/
theorem and_eq_and_iff (v w m : Word) :
    v &&& m = w &&& m ↔ ∀ k < 32, m.getLsbD k = true → v.getLsbD k = w.getLsbD k := by
  constructor
  · intro h k _ hm
    simpa [hm] using congrArg (fun u => u.getLsbD k) h
  · intro h
    apply BitVec.eq_of_getLsbD_eq
    intro k hk
    cases hm : m.getLsbD k with
    | false => simp [hm]
    | true => simp [hm, h k hk hm]

theorem and_mask_opcode_iff (v w : Word) : v &&& 0x0000007F#32 = w &&& 0x0000007F#32 ↔ opcodeOf v = opcodeOf w := by
  rw [and_eq_and_iff, opcodeOf, opcodeOf, extractLsb'_eq_iff]
  constructor
  · intro h k _ hk
    exact h k (by omega) (by rw [getLsbD_mask_opcode k (by omega)]; simpa using hk)
  · intro h k hk hm
    rw [getLsbD_mask_opcode k hk] at hm
    exact h k (Nat.zero_le k) (by simpa using hm)

theorem and_mask_funct3_iff (v w : Word) :
    v &&& 0x0000707F#32 = w &&& 0x0000707F#32 ↔ opcodeOf v = opcodeOf w ∧ funct3Of v = funct3Of w := by
  rw [and_eq_and_iff, opcodeOf, opcodeOf, funct3Of, funct3Of, extractLsb'_eq_iff, extractLsb'_eq_iff]
  constructor
  · intro h
    exact ⟨fun k _ hk => h k (by omega) (by rw [getLsbD_mask_funct3 k (by omega)]; simp; omega),
      fun k hlo hk => h k (by omega) (by rw [getLsbD_mask_funct3 k (by omega)]; simp; omega)⟩
  · rintro ⟨hop, h3⟩ k hk hm
    rw [getLsbD_mask_funct3 k hk] at hm
    have hcases : k < 7 ∨ 12 ≤ k ∧ k < 15 := by simpa using hm
    rcases hcases with h | ⟨hlo, hhi⟩
    · exact hop k (Nat.zero_le k) h
    · exact h3 k hlo hhi

theorem and_mask_funct7_iff (v w : Word) : v &&& 0xFE00707F#32 = w &&& 0xFE00707F#32 ↔
    opcodeOf v = opcodeOf w ∧ funct3Of v = funct3Of w ∧ funct7Of v = funct7Of w := by
  rw [and_eq_and_iff, opcodeOf, opcodeOf, funct3Of, funct3Of, funct7Of, funct7Of, extractLsb'_eq_iff,
    extractLsb'_eq_iff, extractLsb'_eq_iff]
  constructor
  · intro h
    exact ⟨fun k _ hk => h k (by omega) (by rw [getLsbD_mask_funct7 k (by omega)]; simp; omega),
      fun k hlo hk => h k (by omega) (by rw [getLsbD_mask_funct7 k (by omega)]; simp; omega),
      fun k hlo hk => h k (by omega) (by rw [getLsbD_mask_funct7 k (by omega)]; simp; omega)⟩
  · rintro ⟨hop, h3, h7⟩ k hk hm
    rw [getLsbD_mask_funct7 k hk] at hm
    have hcases : (k < 7 ∨ 12 ≤ k ∧ k < 15) ∨ 25 ≤ k := by simpa using hm
    rcases hcases with (h | ⟨hlo, hhi⟩) | h
    · exact hop k (Nat.zero_le k) h
    · exact h3 k hlo hhi
    · exact h7 k h hk

/-! ## Encoding a decoded word -/

/-- FENCE and FENCEI have fields that no bit of the word reaches (R134). -/
theorem encode_fence_of_fields {w : Word} (h3 : funct3Of w = 0#3) (hop : opcodeOf w = 0x0F#7) :
    encode (.fence (predOf w) (succOf w)) = w &&& 0x0FF0707F#32 := by
  rw [encode, ← h3, ← hop]
  apply BitVec.eq_of_getLsbD_eq
  intro k hk
  simp only [encodeI, predOf, succOf, funct3Of, opcodeOf, BitVec.getLsbD_append, BitVec.getLsbD_extractLsb',
    BitVec.getLsbD_and]
  interval_cases k <;> simp

theorem encode_fencei_of_fields {w : Word} (h3 : funct3Of w = 1#3) (hop : opcodeOf w = 0x0F#7) :
    encode .fencei = w &&& 0x0000707F#32 := by
  rw [encode, ← h3, ← hop]
  apply BitVec.eq_of_getLsbD_eq
  intro k hk
  simp only [encodeI, funct3Of, opcodeOf, BitVec.getLsbD_append, BitVec.getLsbD_extractLsb', BitVec.getLsbD_and]
  interval_cases k <;> simp

/-- If the decoder's answer is an instruction, that is well-formed and its word is `v`. -/
def Reencodes (v : Word) (a : Except DecodeReject Instr) : Prop := ∀ i, a = .ok i → i.wellFormed = true ∧ encode i = v

theorem Reencodes.ite {v : Word} {c : Prop} [Decidable c] {a b : Except DecodeReject Instr} (ha : c → Reencodes v a)
    (hb : ¬ c → Reencodes v b) : Reencodes v (if c then a else b) := by
  split
  · exact ha ‹_›
  · exact hb ‹_›

theorem Reencodes.ok {v : Word} {i : Instr} (hwf : i.wellFormed = true) (h : encode i = v) : Reencodes v (.ok i) := by
  rintro _ ⟨⟩
  exact ⟨hwf, h⟩

theorem Reencodes.error {v : Word} {e : DecodeReject} : Reencodes v (.error e) := nofun

/-- The last of the eight values of funct3. -/
theorem funct3_eq_seven (f : BitVec 3) (h0 : ¬ f = 0#3) (h1 : ¬ f = 1#3) (h2 : ¬ f = 2#3) (h3 : ¬ f = 3#3)
    (h4 : ¬ f = 4#3) (h5 : ¬ f = 5#3) (h6 : ¬ f = 6#3) : f = 7#3 := by bv_omega

theorem reencodes_decodeRegister {w : Word} (hop : opcodeOf w = 0x33#7) : Reencodes w (decodeRegister w) := by
  unfold decodeRegister
  refine .ite (fun h7 => ?_) fun _ => .ite (fun h7 => ?_) fun _ => .error
  · iterate 7 refine .ite (fun h3 => .ok rfl (encodeR_of_fields h7 h3 hop)) fun _ => ?_
    exact .ok rfl (encodeR_of_fields h7 (funct3_eq_seven _ ‹_› ‹_› ‹_› ‹_› ‹_› ‹_› ‹_›) hop)
  · iterate 2 refine .ite (fun h3 => .ok rfl (encodeR_of_fields h7 h3 hop)) fun _ => ?_
    exact .error

theorem reencodes_decodeImmediate {w : Word} (hop : opcodeOf w = 0x13#7) : Reencodes w (decodeImmediate w) := by
  unfold decodeImmediate
  refine .ite (fun h3 => .ok rfl (encodeI_of_fields h3 hop)) fun _ => ?_
  refine .ite (fun h3 => .ite (fun h7 => .ok rfl (encodeR_of_fields h7 h3 hop)) fun _ => .error) fun _ => ?_
  iterate 3 refine .ite (fun h3 => .ok rfl (encodeI_of_fields h3 hop)) fun _ => ?_
  refine .ite (fun h3 => .ite (fun h7 => .ok rfl (encodeR_of_fields h7 h3 hop)) fun _ =>
    .ite (fun h7 => .ok rfl (encodeR_of_fields h7 h3 hop)) fun _ => .error) fun _ => ?_
  refine .ite (fun h3 => .ok rfl (encodeI_of_fields h3 hop)) fun _ => ?_
  exact .ok rfl (encodeI_of_fields (funct3_eq_seven _ ‹_› ‹_› ‹_› ‹_› ‹_› ‹_› ‹_›) hop)

theorem reencodes_decodeLoad {w : Word} (hop : opcodeOf w = 0x03#7) : Reencodes w (decodeLoad w) := by
  unfold decodeLoad
  iterate 5 refine .ite (fun h3 => .ok rfl (encodeI_of_fields h3 hop)) fun _ => ?_
  exact .error

theorem reencodes_decodeStore {w : Word} (hop : opcodeOf w = 0x23#7) : Reencodes w (decodeStore w) := by
  unfold decodeStore
  iterate 3 refine .ite (fun h3 => .ok rfl (encodeS_of_fields h3 hop)) fun _ => ?_
  exact .error

theorem reencodes_decodeBranch {w : Word} (hop : opcodeOf w = 0x63#7) : Reencodes w (decodeBranch w) := by
  unfold decodeBranch
  iterate 6
    refine .ite (fun h3 => .ok (branchOffsetOk_branchOffsetOf w) (encodeB_of_fields h3 hop)) fun _ => ?_
  exact .error

theorem reencodes_decodeSystem {w : Word} (hop : opcodeOf w = 0x73#7) : Reencodes w (decodeSystem w) := by
  unfold decodeSystem
  refine .ite (fun _ => .ite (fun hw => .ok rfl hw.symm) fun _ => .ite (fun hw => .ok rfl hw.symm) fun _ => .error)
    fun _ => ?_
  iterate 6 refine .ite (fun h3 => .ok rfl (encodeI_of_fields h3 hop)) fun _ => ?_
  exact .error

/-- The word with the bits that FENCE and FENCEI ignore cleared (R134). -/
def withoutIgnoredBits (w : Word) : Word :=
  if opcodeOf w = 0x0F#7 then (if funct3Of w = 0#3 then w &&& 0x0FF0707F#32 else w &&& 0x0000707F#32) else w

theorem withoutIgnoredBits_of_ne {w : Word} {op : BitVec 7} (h : opcodeOf w = op) (hne : op ≠ 0x0F#7) :
    withoutIgnoredBits w = w := if_neg (h ▸ hne)

theorem reencodes_decodeFence {w : Word} (hop : opcodeOf w = 0x0F#7) :
    Reencodes (withoutIgnoredBits w) (decodeFence w) := by
  unfold decodeFence withoutIgnoredBits
  rw [if_pos hop]
  refine .ite (fun h3 => .ok rfl ?_) fun h0 => .ite (fun h3 => .ok rfl ?_) fun _ => .error
  · rw [if_pos h3, encode_fence_of_fields h3 hop]
  · rw [if_neg h0, encode_fencei_of_fields h3 hop]

theorem reencodes_decode (w : Word) : Reencodes (withoutIgnoredBits w) (decode w) := by
  have keep {op : BitVec 7} (h : opcodeOf w = op) (hne : op ≠ 0x0F#7) {a : Except DecodeReject Instr}
      (ha : Reencodes w a) : Reencodes (withoutIgnoredBits w) a := by rwa [withoutIgnoredBits_of_ne h hne]
  unfold decode
  refine .ite (fun h => keep h (by decide) (reencodes_decodeRegister h)) fun _ => ?_
  refine .ite (fun h => keep h (by decide) (reencodes_decodeImmediate h)) fun _ => ?_
  refine .ite (fun h => keep h (by decide) (.ok rfl (encodeU_of_fields h))) fun _ => ?_
  refine .ite (fun h => keep h (by decide) (.ok rfl (encodeU_of_fields h))) fun _ => ?_
  refine .ite (fun h => keep h (by decide) (reencodes_decodeLoad h)) fun _ => ?_
  refine .ite (fun h => keep h (by decide) (reencodes_decodeStore h)) fun _ => ?_
  refine .ite (fun h => keep h (by decide) (reencodes_decodeBranch h)) fun _ => ?_
  refine .ite (fun h => keep h (by decide) (.ok (jumpOffsetOk_jumpOffsetOf w) (encodeJ_of_fields h))) fun _ => ?_
  refine .ite (fun h => keep h (by decide) (.ite (fun h3 => .ok rfl (encodeI_of_fields h3 h)) fun _ => .error))
    fun _ => ?_
  refine .ite (fun h => reencodes_decodeFence h) fun _ => ?_
  exact .ite (fun h => keep h (by decide) (reencodes_decodeSystem h)) fun _ => .error

/-- Settles O2: at each leaf of the decoder the opcode, funct3 and funct7 are known and the operands are fields of the
word. -/
theorem encodeOfDecode : Obligations.EncodeOfDecode := reencodes_decode

/-! ## The rows of the opcode table -/

theorem has_opcode_iff {b w : Word} (hb : b &&& 0x0000007F#32 = b) :
    OpcodeRow.has ⟨b, 0x0000007F#32⟩ w ↔ opcodeOf w = opcodeOf b := by
  rw [OpcodeRow.has, ← and_mask_opcode_iff, hb]

theorem has_funct3_iff {b w : Word} (hb : b &&& 0x0000707F#32 = b) :
    OpcodeRow.has ⟨b, 0x0000707F#32⟩ w ↔ opcodeOf w = opcodeOf b ∧ funct3Of w = funct3Of b := by
  rw [OpcodeRow.has, ← and_mask_funct3_iff, hb]

theorem has_funct7_iff {b w : Word} (hb : b &&& 0xFE00707F#32 = b) : OpcodeRow.has ⟨b, 0xFE00707F#32⟩ w ↔
    opcodeOf w = opcodeOf b ∧ funct3Of w = funct3Of b ∧ funct7Of w = funct7Of b := by
  rw [OpcodeRow.has, ← and_mask_funct7_iff, hb]

theorem has_word_iff {b w : Word} : OpcodeRow.has ⟨b, 0xFFFFFFFF#32⟩ w ↔ w = b := by
  rw [OpcodeRow.has, show 0xFFFFFFFF#32 = BitVec.allOnes 32 from rfl, BitVec.and_allOnes]

/-- The word of an instruction is of its row (R140). -/
theorem row_has_encode (i : Instr) : i.row.has (encode i) := by
  cases i with
  | lui | auipc => exact (has_opcode_iff rfl).2 (opcodeOf_encodeU ..)
  | jal => exact (has_opcode_iff rfl).2 (opcodeOf_encodeJ ..)
  | bne | beq | blt | bge | bltu | bgeu =>
    exact (has_funct3_iff rfl).2 ⟨opcodeOf_encodeB .., funct3Of_encodeB ..⟩
  | sb | sh | sw => exact (has_funct3_iff rfl).2 ⟨opcodeOf_encodeS .., funct3Of_encodeS ..⟩
  | addi | slti | sltiu | xori | ori | andi | jalr | lb | lh | lw | lbu | lhu | fence | fencei | csrrw | csrrs | csrrc
  | csrrwi | csrrsi | csrrci => exact (has_funct3_iff rfl).2 ⟨opcodeOf_encodeI .., funct3Of_encodeI ..⟩
  | add | sub | slt | sltu | xor | or | and | sra | srl | sll | srai | srli | slli =>
    exact (has_funct7_iff rfl).2 ⟨opcodeOf_encodeR .., funct3Of_encodeR .., funct7Of_encodeR ..⟩
  | ecall | ebreak => exact has_word_iff.2 rfl

/-- A word of an instruction's row decodes to an instruction of that row: the decoder tests the fields the mask has. -/
theorem decodesLike_of_row_has {i : Instr} {w : Word} (h : i.row.has w) : DecodesLike w i := by
  cases i with
  | lui =>
    have hop : opcodeOf w = 0x37#7 := (has_opcode_iff rfl).1 h
    exact ⟨_, decode_of_opcode_lui w hop, rfl⟩
  | auipc =>
    have hop : opcodeOf w = 0x17#7 := (has_opcode_iff rfl).1 h
    exact ⟨_, decode_of_opcode_auipc w hop, rfl⟩
  | jal =>
    have hop : opcodeOf w = 0x6F#7 := (has_opcode_iff rfl).1 h
    exact ⟨_, decode_of_opcode_jal w hop, rfl⟩
  | bne | beq | blt | bge | bltu | bgeu =>
    obtain ⟨hop, h3⟩ := (has_funct3_iff rfl).1 h
    rw [DecodesLike, decode_of_opcode_branch hop, decodeBranch, h3]
    exact ⟨_, rfl, rfl⟩
  | sb | sh | sw =>
    obtain ⟨hop, h3⟩ := (has_funct3_iff rfl).1 h
    rw [DecodesLike, decode_of_opcode_store hop, decodeStore, h3]
    exact ⟨_, rfl, rfl⟩
  | lb | lh | lw | lbu | lhu =>
    obtain ⟨hop, h3⟩ := (has_funct3_iff rfl).1 h
    rw [DecodesLike, decode_of_opcode_load hop, decodeLoad, h3]
    exact ⟨_, rfl, rfl⟩
  | jalr =>
    obtain ⟨hop, h3⟩ := (has_funct3_iff rfl).1 h
    rw [DecodesLike, decode_of_opcode_jalr hop, h3]
    exact ⟨_, rfl, rfl⟩
  | fence | fencei =>
    obtain ⟨hop, h3⟩ := (has_funct3_iff rfl).1 h
    rw [DecodesLike, decode_of_opcode_fence hop, decodeFence, h3]
    exact ⟨_, rfl, rfl⟩
  | csrrw | csrrs | csrrc | csrrwi | csrrsi | csrrci =>
    obtain ⟨hop, h3⟩ := (has_funct3_iff rfl).1 h
    rw [DecodesLike, decode_of_opcode_system hop, decodeSystem, h3]
    exact ⟨_, rfl, rfl⟩
  | addi | slti | sltiu | xori | ori | andi =>
    obtain ⟨hop, h3⟩ := (has_funct3_iff rfl).1 h
    rw [DecodesLike, decode_of_opcode_immediate hop, decodeImmediate, h3]
    exact ⟨_, rfl, rfl⟩
  | srai | srli | slli =>
    obtain ⟨hop, h3, h7⟩ := (has_funct7_iff rfl).1 h
    rw [DecodesLike, decode_of_opcode_immediate hop, decodeImmediate, h3, h7]
    exact ⟨_, rfl, rfl⟩
  | add | sub | slt | sltu | xor | or | and | sra | srl | sll =>
    obtain ⟨hop, h3, h7⟩ := (has_funct7_iff rfl).1 h
    rw [DecodesLike, decode_of_opcode_register hop, decodeRegister, h3, h7]
    exact ⟨_, rfl, rfl⟩
  | ecall | ebreak =>
    obtain rfl := has_word_iff.1 h
    exact ⟨_, rfl, rfl⟩

/-- A word that decodes is of its instruction's row, the bits that FENCE and FENCEI ignore lying outside their mask. -/
theorem row_has_of_decode {w : Word} {i : Instr} (h : decode w = .ok i) : i.row.has w := by
  by_cases hop : opcodeOf w = 0x0F#7
  · rw [decode_of_opcode_fence hop, decodeFence] at h
    split_ifs at h with h3 h3 <;> cases h
    · exact (has_funct3_iff rfl).2 ⟨hop, h3⟩
    · exact (has_funct3_iff rfl).2 ⟨hop, h3⟩
  · obtain ⟨-, hw⟩ := reencodes_decode w i h
    rw [withoutIgnoredBits, if_neg hop] at hw
    exact hw ▸ row_has_encode i

/-- Settles O3: from the instruction to its row by encoding it, from the row to the instruction by the decoder's
tests. -/
theorem decodeFollowsOpcodeTable : Obligations.DecodeFollowsOpcodeTable := by
  intro w r
  constructor
  · rintro ⟨i, h, rfl⟩
    exact ⟨⟨i, rfl⟩, row_has_of_decode h⟩
  · rintro ⟨⟨i, rfl⟩, h⟩
    exact decodesLike_of_row_has h

/-! ## The words that are no instruction -/

/-- The decoder's answer is a rejection. -/
def Rejects (a : Except DecodeReject Instr) : Prop := ∃ e, a = .error e

@[simp] theorem not_rejects_ok (i : Instr) : ¬ Rejects (.ok i) := nofun

@[simp] theorem rejects_error (e : DecodeReject) : Rejects (.error e) := ⟨e, rfl⟩

@[simp] theorem rejects_ite (c : Prop) [Decidable c] (a b : Except DecodeReject Instr) :
    Rejects (if c then a else b) ↔ if c then Rejects a else Rejects b := by
  split <;> rfl

/-- The eight values of funct3. -/
theorem funct3_cases (f : BitVec 3) :
    f = 0#3 ∨ f = 1#3 ∨ f = 2#3 ∨ f = 3#3 ∨ f = 4#3 ∨ f = 5#3 ∨ f = 6#3 ∨ f = 7#3 := by bv_omega

theorem rejects_decodeRegister (w : Word) : Rejects (decodeRegister w) ↔
    funct7Of w ≠ 0x00#7 ∧ ¬ (funct7Of w = 0x20#7 ∧ (funct3Of w = 0#3 ∨ funct3Of w = 5#3)) := by
  rcases funct3_cases (funct3Of w) with h | h | h | h | h | h | h | h <;> simp [decodeRegister, h]

theorem rejects_decodeImmediate (w : Word) : Rejects (decodeImmediate w) ↔
    (funct3Of w = 1#3 ∧ funct7Of w ≠ 0x00#7) ∨ (funct3Of w = 5#3 ∧ funct7Of w ≠ 0x00#7 ∧ funct7Of w ≠ 0x20#7) := by
  rcases funct3_cases (funct3Of w) with h | h | h | h | h | h | h | h <;> simp [decodeImmediate, h]

theorem rejects_decodeLoad (w : Word) : Rejects (decodeLoad w) ↔ funct3Of w ∈ [3#3, 6#3, 7#3] := by
  rcases funct3_cases (funct3Of w) with h | h | h | h | h | h | h | h <;> simp [decodeLoad, h]

theorem rejects_decodeStore (w : Word) : Rejects (decodeStore w) ↔ 3 ≤ (funct3Of w).toNat := by
  rcases funct3_cases (funct3Of w) with h | h | h | h | h | h | h | h <;> simp [decodeStore, h]

theorem rejects_decodeBranch (w : Word) : Rejects (decodeBranch w) ↔ funct3Of w ∈ [2#3, 3#3] := by
  rcases funct3_cases (funct3Of w) with h | h | h | h | h | h | h | h <;> simp [decodeBranch, h]

theorem rejects_decodeFence (w : Word) : Rejects (decodeFence w) ↔ 2 ≤ (funct3Of w).toNat := by
  rcases funct3_cases (funct3Of w) with h | h | h | h | h | h | h | h <;> simp [decodeFence, h]

theorem rejects_decodeSystem (w : Word) : Rejects (decodeSystem w) ↔
    funct3Of w = 4#3 ∨ (funct3Of w = 0#3 ∧ w ≠ 0x00000073#32 ∧ w ≠ 0x00100073#32) := by
  rcases funct3_cases (funct3Of w) with h | h | h | h | h | h | h | h <;> simp [decodeSystem, h]

/-- Settles O4: an opcode that is none of the eleven is rejected at once, and each of the others by its own part of the
decoder. -/
theorem illegalWordsAreExactlyTheListed : Obligations.IllegalWordsAreExactlyTheListed := by
  intro w
  change Rejects (decode w) ↔ _
  by_cases hop : opcodeOf w ∈ [0x33#7, 0x13#7, 0x37#7, 0x17#7, 0x03#7, 0x23#7, 0x63#7, 0x6F#7, 0x67#7, 0x0F#7, 0x73#7]
  · simp only [List.mem_cons, List.not_mem_nil, or_false] at hop
    rcases hop with h | h | h | h | h | h | h | h | h | h | h
    · simp [decode_of_opcode_register h, rejects_decodeRegister, h]
    · simp [decode_of_opcode_immediate h, rejects_decodeImmediate, h]
    · simp [decode_of_opcode_lui w h, h]
    · simp [decode_of_opcode_auipc w h, h]
    · simp [decode_of_opcode_load h, rejects_decodeLoad, h]
    · simp [decode_of_opcode_store h, rejects_decodeStore, h]
    · simp [decode_of_opcode_branch h, rejects_decodeBranch, h]
    · simp [decode_of_opcode_jal w h, h]
    · simp [decode_of_opcode_jalr h, h]
    · simp [decode_of_opcode_fence h, rejects_decodeFence, h]
    · simp [decode_of_opcode_system h, rejects_decodeSystem, h]
  · refine iff_of_true ?_ (.inl hop)
    simp only [List.mem_cons, List.not_mem_nil, or_false, not_or] at hop
    simp [decode, hop]

/-! ## The words the spec prints -/

/-- Settles O5: the decoder run on the words. -/
theorem specWordsDecode : Obligations.SpecWordsDecode := by
  unfold Obligations.SpecWordsDecode
  refine ⟨?_, ?_, ?_, ?_, ?_, ?_, ?_, ?_, ?_, ?_, ?_, ?_, ?_⟩ <;> rfl

end Sys2Proof.Machine
end

section
/-!
What running one instruction can do, said once: `exec_effect` sorts every next state that `exec` answers under one of
nine effects. The whole-machine rules about one instruction are case splits over these.
-/
namespace Sys2Proof.Machine

/-! ## The effects of an instruction -/

/-- The state in which CSR `c` has been read, as a counter refreshed first, `new` of the value read been written to it
and the value read to `rd` (47_system.md R298 steps 2 to 7). -/
def State.csrModified (s : State) (c : Csr) (rd : Reg) (new : Word → Word) : State :=
  (((s.refreshCounter c).csrSet c (new ((s.refreshCounter c).csrValue c))).setX rd
    ((s.refreshCounter c).csrValue c)).advance

/-- The next states an instruction can answer, each with what it says about the instruction. -/
inductive Effect (i : Instr) (s : State) : State → Prop where
  /-- A register operation or a load that completes. -/
  | writes (rd : Reg) (v : Word) (hrd : destination i = some rd) : Effect i s (s.setX rd v).advance
  /-- JAL and JALR. -/
  | links (rd : Reg) (target : Word) (hrd : destination i = some rd) (hto : transferTarget s i = some target) :
      Effect i s ((s.setX rd (s.pc + 4)).setPc target)
  /-- A branch that is taken. -/
  | jumps (target : Word) (hrd : destination i = none) (hto : transferTarget s i = some target) :
      Effect i s (s.setPc target)
  /-- A branch that is not taken, and FENCE. -/
  | advances : Effect i s s.advance
  /-- A store that completes. -/
  | stores (ea v : Word) (n : Nat) (hi : isStore i = true) (hn : n ≤ 4) : Effect i s (s.memWrite ea n v).advance
  /-- FENCEI. -/
  | emptiesStale (hi : i = .fencei) : Effect i s (s.setStale []).advance
  /-- A CSR instruction that completes. -/
  | modifiesCsr (c : Csr) (rd : Reg) (new : Word → Word) (hi : isCsr i = true) (hrd : destination i = some rd) :
      Effect i s (s.csrModified c rd new)
  /-- An exception. -/
  | traps (k : Cause) (info : Word) : Effect i s (takeTrap k info s)

section
variable {i : Instr} {s t : State}

theorem Effect.of_writeBack {rd : Reg} {v : Word} (hrd : destination i = some rd) (h : writeBack rd v s = .next t) :
    Effect i s t := by
  cases h
  exact .writes rd v hrd

theorem Effect.of_linkAndJump {rd : Reg} {target : Word} (hrd : destination i = some rd)
    (hto : transferTarget s i = some target) (h : linkAndJump rd target s = .next t) : Effect i s t := by
  cases h
  exact .links rd target hrd hto

theorem Effect.of_branchIf {c : Bool} {off : BitVec 13} (hrd : destination i = none)
    (hto : transferTarget s i = some (branchTarget s off)) (h : branchIf c off s = .next t) : Effect i s t := by
  cases h
  cases c with
  | false => exact .advances
  | true => exact .jumps _ hrd hto

theorem Effect.of_load {n : Nat} {ext : Word → Nat → Word} {rd : Reg} {ea : Word} (hrd : destination i = some rd)
    (h : load n ext rd ea s = .next t) : Effect i s t := by
  rcases load_next n ext rd ea s t h with ⟨-, rfl⟩ | ⟨-, -, rfl⟩ | ⟨-, -, v, -, rfl⟩
  · exact .traps _ _
  · exact .traps _ _
  · exact .writes rd _ hrd

theorem Effect.of_store {n : Nat} {v ea : Word} (hi : isStore i = true) (hn : n ≤ 4)
    (h : store n v ea s = .next t) : Effect i s t := by
  rw [store_eq] at h
  cases h
  split_ifs
  · exact .traps _ _
  · exact .traps _ _
  · exact .stores ea v n hi hn

theorem Effect.of_csrInstruction {w src : Word} {op : CsrOp} {rd : Reg} {a : CsrAddr} (hi : isCsr i = true)
    (hrd : destination i = some rd) (h : csrInstruction w op rd a src s = .next t) : Effect i s t := by
  rcases csrInstruction_next w op rd a src s t h with ⟨-, rfl⟩ | ⟨c, -, -, rfl⟩
  · exact .traps _ _
  · exact .modifiesCsr c rd (fun old => op.apply old src) hi hrd

/-- Every instruction is one of the shared operations on its operands. -/
theorem exec_effect (h : exec i s = .next t) : Effect i s t := by
  cases i with
  | bne | beq | blt | bge | bltu | bgeu => exact .of_branchIf rfl rfl h
  | jal | jalr => exact .of_linkAndJump rfl rfl h
  | lb | lh | lw | lbu | lhu => exact .of_load rfl h
  | sb | sh | sw => exact .of_store rfl (by decide) h
  | csrrw | csrrs | csrrc | csrrwi | csrrsi | csrrci => exact .of_csrInstruction rfl rfl h
  | fence => cases h; exact .advances
  | fencei => cases h; exact .emptiesStale rfl
  | ecall | ebreak => cases h; exact .traps _ _
  | auipc | slt | sltu | slti | sltiu | lui | add | sub | addi | xor | or | and | ori | xori | andi | srai | slli | sra
  | srl | sll | srli => exact .of_writeBack rfl h

end

/-! ## What a CSR instruction that completes leaves unchanged -/

section
variable (s : State) (c : Csr) (rd : Reg) (new : Word → Word)

@[simp] theorem State.csrModified_pc : (s.csrModified c rd new).pc = s.pc + 4 := by simp [csrModified]
@[simp] theorem State.csrModified_priv : (s.csrModified c rd new).priv = s.priv := by simp [csrModified]
@[simp] theorem State.csrModified_mem : (s.csrModified c rd new).mem = s.mem := by simp [csrModified]
@[simp] theorem State.csrModified_stale : (s.csrModified c rd new).stale = s.stale := by simp [csrModified]
@[simp] theorem State.csrModified_pmaRefused : (s.csrModified c rd new).pmaRefused = s.pmaRefused := by
  simp [csrModified]
@[simp] theorem State.csrModified_misa : (s.csrModified c rd new).csr.misa = s.csr.misa := by simp [csrModified]

theorem State.csrModified_readX_of_ne (r : Reg) (h : r ≠ rd) : (s.csrModified c rd new).readX r = s.readX r := by
  simp [csrModified, readX_setX_of_ne _ _ _ _ h]

theorem State.csrModified_readX_self (h : rd ≠ 0#5) :
    (s.csrModified c rd new).readX rd = (s.refreshCounter c).csrValue c := by
  simp [csrModified, h]

end

/-! ## Trap entry as the spec states it -/

/-- The CSRs that trap entry writes (R420). -/
theorem takeTrap_csrValue (k : Cause) (info : Word) (s : State) (c : Csr)
    (h : c ∉ [Csr.mepc, Csr.mcause, Csr.mtval, Csr.mstatus]) : (takeTrap k info s).csrValue c = s.csrValue c := by
  cases c <;> first | rfl | simp at h

theorem mstatusTrapped_mstatusOnTrap (m : Word) (p : Priv) : MstatusTrapped m (mstatusOnTrap m p) p := by
  refine ⟨?_, ?_, ?_, ?_, fun i h3 h7 h11 h12 => ?_⟩ <;> rw [getLsbD_mstatusOnTrap]
  · rfl
  · rfl
  · rfl
  · rfl
  · simp [h3, h7, h11, h12]

/-- Trap entry is R420's, with the pc that the exception saves. -/
theorem tookTrap_takeTrap (k : Cause) (info : Word) (s : State) : TookTrap s (takeTrap k info s) k.code (k.epc s.pc) :=
  ⟨rfl, rfl, mstatusTrapped_mstatusOnTrap _ _, rfl, rfl, takeTrap_csrValue k info s, rfl, rfl, fun _ => rfl,
    fun _ => rfl, rfl, rfl⟩

end Sys2Proof.Machine
end

section
/-!
What every step keeps, and what no instruction but the named ones can do: each rule by cases on the effect.
-/
namespace Sys2Proof.Machine

@[simp] theorem State.memWrite_csrValue (s : State) (a : Word) (n : Nat) (v : Word) (c : Csr) :
    (s.memWrite a n v).csrValue c = s.csrValue c := by simp [State.memWrite]

/-! ## Rules about one instruction -/

/-- Settles O22: the pc differs from `pc + 4` only after a jump, a link or a trap. -/
theorem onlyTransfersAndTrapsMoveThePc : Obligations.OnlyTransfersAndTrapsMoveThePc := by
  intro i s t h
  refine ⟨fun hpc => ?_, ?_⟩
  · cases exec_effect h with
    | writes | advances | stores | emptiesStale | modifiesCsr => exact absurd (by simp) hpc
    | links _ _ _ hto | jumps _ _ hto => exact .inl hto
    | traps k info => exact .inr ⟨_, _, tookTrap_takeTrap k info s⟩
  · rintro (rfl | rfl)
    · cases h
      exact ⟨_, _, tookTrap_takeTrap _ _ s⟩
    · cases h
      exact ⟨_, _, tookTrap_takeTrap _ _ s⟩

/-- Settles O23: a register is written by a write-back, a link or a CSR instruction alone, each to the destination. -/
theorem onlyTheDestinationRegisterChanges : Obligations.OnlyTheDestinationRegisterChanges := by
  intro i s t r h hr
  have hne {rd : Reg} (hrd : destination i = some rd) : r ≠ rd := by
    rintro rfl
    exact hr hrd
  cases exec_effect h with
  | writes rd v hrd => rw [State.advance_readX, State.readX_setX_of_ne _ _ _ _ (hne hrd)]
  | links rd target hrd => rw [State.setPc_readX, State.readX_setX_of_ne _ _ _ _ (hne hrd)]
  | modifiesCsr c rd new _ hrd => exact State.csrModified_readX_of_ne _ _ _ _ _ (hne hrd)
  | jumps | advances | stores | emptiesStale | traps => simp

/-- A store makes addresses stale and no address fresh. -/
theorem isStale_memWrite_of_isStale {s : State} {a : Nat} (ea v : Word) (n : Nat) (h : s.isStale a) :
    (s.memWrite ea n v).isStale a := by
  obtain ⟨b, hb⟩ := h
  exact ⟨b, (mem_stale_memWrite s ea n v _).2 (.inl hb)⟩

/-- Settles O24: memory changes by a store alone, the hidden set by a store and FENCEI. -/
theorem onlyStoresAndFenceiChangeMemoryState : Obligations.OnlyStoresAndFenceiChangeMemoryState := by
  intro i s t a h
  cases exec_effect h with
  | writes | links | jumps | advances | modifiesCsr | traps => simp [State.isStale]
  | stores ea v n hi => exact ⟨by simp [hi], by simp [hi], fun _ => isStale_memWrite_of_isStale ea v n⟩
  | emptiesStale hi => simp [hi, State.isStale]

/-- Settles O25: no effect but those of a CSR instruction and of a trap reaches a CSR. -/
theorem onlyCsrInstructionsAndTrapsWriteCsrs : Obligations.OnlyCsrInstructionsAndTrapsWriteCsrs := by
  intro i s t c h hi
  cases exec_effect h with
  | writes | links | jumps | advances | stores | emptiesStale => simp
  | modifiesCsr _ _ _ hcsr => rw [hi] at hcsr; cases hcsr
  | traps k info => exact ⟨takeTrap_csrValue k info s c, fun _ => ⟨_, _, tookTrap_takeTrap k info s⟩⟩

/-! ## Exceptions -/

/-- The exceptions that save the next pc are those of codes 3, 8, 9 and 11 (R420 step 1). -/
theorem Cause.epc_eq (k : Cause) (pc : Word) : k.epc pc = if k.code ∈ [3, 8, 9, 11] then pc + 4 else pc := by
  cases k <;> rfl

/-- Settles O27. -/
theorem trapEntryIsAsTheSpecSays : Obligations.TrapEntryIsAsTheSpecSays := by
  intro k info s
  rw [← Cause.epc_eq]
  exact tookTrap_takeTrap k info s

/-- Settles O28: ECALL's exception is chosen by the mode. -/
theorem ecallEbreakTrap : Obligations.EcallEbreakTrap := by
  intro s
  have hecall : Traps .ecall s (ecallCause s.priv).code ((ecallCause s.priv).epc s.pc) :=
    ⟨_, rfl, tookTrap_takeTrap _ _ s⟩
  refine ⟨fun h => ?_, fun h => ?_, fun h => ?_, _, rfl, tookTrap_takeTrap _ _ s⟩
  · rwa [h] at hecall
  · rwa [h] at hecall
  · rwa [h] at hecall

/-! ## What every step keeps -/

/-- A step from M mode uses up at most one free value for the fetch, and then has an effect of some instruction: where
it traps on the fetch or on an illegal word, the effect is a trap. -/
theorem step_effect {s t : State} (h : step s = .next t) :
    s.priv = .machine ∧ ∃ u i, (u = s ∨ u = s.nextDraw) ∧ Effect i u t := by
  obtain ⟨hpriv, hcases⟩ := step_next s t h
  refine ⟨hpriv, ?_⟩
  rcases hcases with ⟨-, rfl⟩ | ⟨-, -, rfl⟩ | ⟨-, -, w, -, ⟨e, -, rfl⟩ | ⟨i, -, hexec⟩⟩
  · exact ⟨s, .ecall, .inl rfl, .traps _ _⟩
  · exact ⟨s, .ecall, .inl rfl, .traps _ _⟩
  · exact ⟨s.afterFetch, .ecall, s.afterFetch_cases, .traps _ _⟩
  · exact ⟨s.afterFetch, i, s.afterFetch_cases, exec_effect hexec⟩

/-- A step keeps what using up a free value and every effect keep. -/
theorem step_keeps {P : State → Prop} (hdraw : ∀ s, P s → P s.nextDraw)
    (heffect : ∀ i s t, Effect i s t → P s → P t) {s t : State} (hs : P s) (h : step s = .next t) : P t := by
  obtain ⟨-, u, i, hu, heff⟩ := step_effect h
  refine heffect i u t heff ?_
  rcases hu with rfl | rfl
  · exact hs
  · exact hdraw s hs

theorem Effect.misa_eq {i : Instr} {s t : State} (h : Effect i s t) : t.csr.misa = s.csr.misa := by
  cases h with
  | writes | links | jumps | advances | stores | emptiesStale | modifiesCsr => simp
  | traps => rfl

theorem Effect.pmaRefused_eq {i : Instr} {s t : State} (h : Effect i s t) : t.pmaRefused = s.pmaRefused := by
  cases h <;> simp

/-- Settles O19: no effect reaches `misa` or the platform's answers. -/
theorem stepKeepsMisaAndPlatform : Obligations.StepKeepsMisaAndPlatform := by
  intro s t h
  have hmisa : t.csr.misa = s.csr.misa :=
    step_keeps (P := fun u => u.csr.misa = s.csr.misa) (fun _ hu => hu) (fun _ _ _ he hu => he.misa_eq.trans hu) rfl h
  have hpma : t.pmaRefused = s.pmaRefused :=
    step_keeps (P := fun u => u.pmaRefused = s.pmaRefused) (fun _ hu => hu)
      (fun _ _ _ he hu => he.pmaRefused_eq.trans hu) rfl h
  exact ⟨hmisa, fun a n k => by rw [State.pma, State.pma, hpma]⟩

theorem Effect.isSome_byteAt {i : Instr} {s t : State} (a : Nat) (h : Effect i s t)
    (ha : (s.mem.byteAt a).isSome = true) : (t.mem.byteAt a).isSome = true := by
  cases h with
  | stores ea v n => exact writeBytes_isSome s.mem ea v n a ha
  | writes | links | jumps | advances | emptiesStale | modifiesCsr | traps => simpa using ha

/-- Settles O20: a store is the only effect that touches memory, and it takes no value away. -/
theorem bytesNeverLoseTheirValue : Obligations.BytesNeverLoseTheirValue :=
  fun _ _ a h ha => step_keeps (P := fun u => (u.mem.byteAt a).isSome = true) (fun _ hu => hu)
    (fun _ _ _ he hu => he.isSome_byteAt a hu) ha h

/-- A store leaves a value at every stale address: at the new ones it has just put one there. -/
theorem inv_memWrite {s : State} (ea v : Word) {n : Nat} (hn : n ≤ 4) (h : s.Inv) : (s.memWrite ea n v).Inv := by
  obtain ⟨hwf, hstale, hpriv⟩ := h
  refine ⟨State.memWrite_wf s ea n v hwf, fun e he => ?_, hpriv⟩
  rw [State.memWrite_mem]
  rcases (mem_stale_memWrite s ea n v e).1 he with he | ⟨k, hk, rfl⟩
  · exact writeBytes_isSome s.mem ea v n e.1 (hstale e he)
  · simp [writeBytes_byteAt_inside s.mem ea v n k hk hn]

theorem Effect.inv {i : Instr} {s t : State} (h : Effect i s t) (hs : s.Inv) : t.Inv := by
  cases h with
  | stores ea v n _ hn => exact inv_memWrite ea v hn hs
  | emptiesStale =>
    obtain ⟨hwf, -, hpriv⟩ := hs
    exact ⟨hwf, nofun, hpriv⟩
  | traps =>
    obtain ⟨hwf, hstale, -⟩ := hs
    exact ⟨hwf, hstale, rfl⟩
  | writes | links | jumps | advances | modifiesCsr => simpa [State.Inv] using hs

/-- Settles O15: every effect keeps the invariant, and so does using up a free value. -/
theorem stepKeepsTheInvariant : Obligations.StepKeepsTheInvariant :=
  fun _ _ => step_keeps (fun _ hs => hs) fun _ _ _ he => he.inv

/-! ## The state after reset -/

/-- Settles O16. -/
theorem resetMeetsTheInvariant : Obligations.ResetMeetsTheInvariant := ⟨State.reset_mem_wf, nofun, rfl⟩

/-- Settles O17. -/
theorem resetLeavesTheSpecsValues : Obligations.ResetLeavesTheSpecsValues :=
  ⟨rfl, nofun, State.readX_zero _, fun _ => rfl⟩

theorem reset_readX (r : Reg) : State.reset.readX r = 0#32 := by
  by_cases h : r = 0#5
  · rw [h, State.readX_zero]
  · simp [State.readX, State.reset, h]

/-- `misa` and the counters are the CSRs of the other classes. -/
theorem reset_csrValue (c : Csr) (h : c.holdsWrites) : State.reset.csrValue c = 0#32 := by
  cases c <;> first | rfl | simp [Csr.holdsWrites, Csr.cls] at h

/-- Settles O18. -/
theorem resetLeavesTheModelsChoices : Obligations.ResetLeavesTheModelsChoices :=
  ⟨reset_readX, reset_csrValue, rfl, fun _ _ _ => rfl⟩

end Sys2Proof.Machine
end

section
/-!
The step (00_scope.md R13): what a fetch delivers, which of the checks answers, and runs of steps.
-/
namespace Sys2Proof.Machine

theorem alignedTo_eq_true_iff (a : Word) (n : Nat) : alignedTo a n = true ↔ a.toNat % n = 0 := by simp [alignedTo]

theorem alignedTo_eq_false_iff (a : Word) (n : Nat) : alignedTo a n = false ↔ a.toNat % n ≠ 0 := by simp [alignedTo]

/-! ## What a fetch delivers -/

/-- What `stale` records with an address. -/
theorem mem_staleValues (l : List (Nat × Option Byte)) (a : Nat) (v : Option Byte) :
    v ∈ staleValues l a ↔ (a, v) ∈ l := by
  simp only [staleValues, List.mem_map, List.mem_filter, beq_iff_eq]
  constructor
  · rintro ⟨⟨b, u⟩, ⟨hmem, rfl⟩, rfl⟩
    exact hmem
  · exact fun h => ⟨(a, v), ⟨h, rfl⟩, rfl⟩

theorem staleValues_eq_nil_iff (s : State) (a : Nat) : staleValues s.stale a = [] ↔ ¬ s.isStale a := by
  simp [List.eq_nil_iff_forall_not_mem, mem_staleValues, State.isStale]

/-- A byte that is not stale is delivered as memory holds it (R88). -/
theorem fetchByte_of_not_isStale {s : State} {a : Nat} (i : Nat) (h : ¬ s.isStale a) :
    s.fetchByte a i = s.mem.byteAt a :=
  fetchByte_of_not_stale s a i ((staleValues_eq_nil_iff s a).2 h)

/-- A stale byte is delivered as memory holds it or as `stale` records it (R105). -/
theorem fetchByte_mem (s : State) (a i : Nat) : s.fetchByte a i ∈ s.mem.byteAt a :: staleValues s.stale a := by
  unfold State.fetchByte
  split
  · exact List.mem_cons_self
  · rename_i old olds hstale
    have hlt : Config.staleChoice s.draws i % (olds.length + 2) < (s.mem.byteAt a :: old :: olds).length :=
      Nat.mod_lt _ (Nat.succ_pos _)
    rw [hstale, List.getD_eq_getElem _ _ hlt]
    exact List.getElem_mem _

/-- Settles O10. -/
theorem fetchDeliversAHeldByte : Obligations.FetchDeliversAHeldByte := by
  refine fun s a i => ⟨?_, fetchByte_of_not_isStale i⟩
  rcases List.mem_cons.1 (fetchByte_mem s a i) with h | h
  · exact .inl h
  · exact .inr ⟨_, (mem_staleValues _ _ _).1 h, rfl⟩

theorem fetchIsStale_iff (s : State) : s.fetchIsStale = true ↔ ∃ k < 4, s.isStale (byteAddr s.pc k) := by
  simp [State.fetchIsStale, staleValues_eq_nil_iff]

theorem afterFetch_of_not_stale {s : State} (h : ∀ k < 4, ¬ s.isStale (byteAddr s.pc k)) : s.afterFetch = s := by
  have hfetch : ¬ s.fetchIsStale = true := fun ht => by
    obtain ⟨k, hk, hs⟩ := (fetchIsStale_iff s).1 ht
    exact h k hk hs
  simp [State.afterFetch, hfetch]

theorem afterFetch_of_stale {s : State} (h : ∃ k < 4, s.isStale (byteAddr s.pc k)) : s.afterFetch = s.nextDraw := by
  simp [State.afterFetch, (fetchIsStale_iff s).2 h]

/-- The bytes of a word, put together again. -/
theorem wordOfBytes_extractLsb' (w : Word) :
    wordOfBytes (w.extractLsb' 0 8) (w.extractLsb' 8 8) (w.extractLsb' 16 8) (w.extractLsb' 24 8) = w := by
  apply BitVec.eq_of_getLsbD_eq
  intro k hk
  simp only [wordOfBytes, BitVec.getLsbD_append, BitVec.getLsbD_extractLsb']
  interval_cases k <;> simp

/-- A fetch of four bytes that are not stale and hold those of a word delivers the word (R88). -/
theorem fetchWord_of_holdsBytes {s : State} {w : Word} (hfresh : ∀ k < 4, ¬ s.isStale (byteAddr s.pc k))
    (hbytes : HoldsBytes s s.pc 4 (fun k => w.extractLsb' (8 * k) 8)) : s.fetchWord = .ok w := by
  have hbyte (k : Nat) (hk : k < 4) : s.fetchByte (byteAddr s.pc k) k = some (w.extractLsb' (8 * k) 8) := by
    rw [fetchByte_of_not_isStale k (hfresh k hk), hbytes k hk]
  simp [State.fetchWord, hbyte, wordOfBytes_extractLsb']

/-- A fetch that delivers no value for one of its bytes delivers no word (R66). -/
theorem fetchWord_of_no_value {s : State} (h : ∃ k < 4, s.fetchByte (byteAddr s.pc k) k = none) :
    ∃ a, s.fetchWord = .error a := by
  obtain ⟨k, hk, hnone⟩ := h
  unfold State.fetchWord
  split
  · exact ⟨_, rfl⟩
  · split
    · exact ⟨_, rfl⟩
    · split
      · exact ⟨_, rfl⟩
      · split
        · exact ⟨_, rfl⟩
        · interval_cases k <;> simp_all

/-! ## Which check of the step answers -/

section
variable {s : State} (hpriv : s.priv = .machine)
include hpriv

theorem step_of_misaligned (ha : s.pc.toNat % 4 ≠ 0) :
    step s = raise .instructionAddressMisaligned s.pc s := by
  simp [step, hpriv, (alignedTo_eq_false_iff s.pc 4).2 ha]

variable (ha : s.pc.toNat % 4 = 0)
include ha

theorem step_of_refused_fetch (hpma : s.pma s.pc 4 .fetch = false) :
    step s = raise .instructionAccessFault s.pc s := by
  simp [step, hpriv, (alignedTo_eq_true_iff s.pc 4).2 ha, hpma]

variable (hpma : s.pma s.pc 4 .fetch = true)
include hpma

theorem step_of_fetch_error {a : Nat} (h : s.fetchWord = .error a) : step s = .fault (.fetchOfUnwrittenByte a) := by
  simp [step, hpriv, (alignedTo_eq_true_iff s.pc 4).2 ha, hpma, h]

theorem step_of_illegal {w : Word} {e : DecodeReject} (h : s.fetchWord = .ok w) (hw : decode w = .error e) :
    step s = raise .illegalInstruction w s.afterFetch := by
  simp [step, hpriv, (alignedTo_eq_true_iff s.pc 4).2 ha, hpma, h, hw]

theorem step_of_decode {w : Word} {i : Instr} (h : s.fetchWord = .ok w) (hw : decode w = .ok i) :
    step s = exec i s.afterFetch := by
  simp [step, hpriv, (alignedTo_eq_true_iff s.pc 4).2 ha, hpma, h, hw]

end

/-- Settles O8. -/
theorem stepRunsTheDecodedInstruction : Obligations.StepRunsTheDecodedInstruction := by
  intro s w i hpriv ha hpma hfresh hbytes hw
  rw [step_of_decode hpriv ha hpma (fetchWord_of_holdsBytes hfresh hbytes) hw, afterFetch_of_not_stale hfresh]

/-- Settles O9. -/
theorem stepRunsTheDeliveredWord : Obligations.StepRunsTheDeliveredWord := by
  intro s w i hpriv ha hpma hfetch hw
  rw [step_of_decode hpriv ha hpma hfetch hw]
  exact ⟨fun h => by rw [afterFetch_of_not_stale h], fun h => by rw [afterFetch_of_stale h]⟩

theorem stepTraps_of_misaligned {s : State} (hpriv : s.priv = .machine) (ha : s.pc.toNat % 4 ≠ 0) :
    StepTraps s 0 s.pc :=
  ⟨_, step_of_misaligned hpriv ha, tookTrap_takeTrap _ _ s⟩

/-- Settles O11. -/
theorem misalignedOrRefusedFetchTraps : Obligations.MisalignedOrRefusedFetchTraps :=
  fun s hpriv => ⟨stepTraps_of_misaligned hpriv,
    fun ha hpma => ⟨_, step_of_refused_fetch hpriv ha hpma, tookTrap_takeTrap _ _ s⟩⟩

/-- A fetch uses up a free value at most, which trap entry does not tell. -/
theorem tookTrap_afterFetch (k : Cause) (info : Word) (s : State) :
    TookTrap s (takeTrap k info s.afterFetch) k.code (k.epc s.pc) := by
  rcases s.afterFetch_cases with h | h <;> rw [h]
  · exact tookTrap_takeTrap k info s
  · exact tookTrap_takeTrap k info s.nextDraw

/-- Settles O12. -/
theorem illegalWordTraps : Obligations.IllegalWordTraps :=
  fun s _ _ hpriv ha hpma hfetch hw => ⟨_, step_of_illegal hpriv ha hpma hfetch hw, tookTrap_afterFetch _ _ s⟩

/-- Settles O13. -/
theorem fetchOfNoValueStops : Obligations.FetchOfNoValueStops := by
  rintro s hpriv ha hpma ⟨k, hk, hfresh, hnone⟩
  obtain ⟨a, hfetch⟩ := fetchWord_of_no_value ⟨k, hk, (fetchByte_of_not_isStale k hfresh).trans hnone⟩
  exact ⟨a, step_of_fetch_error hpriv ha hpma hfetch⟩

/-- Settles O14. -/
theorem otherModesAreRefused : Obligations.OtherModesAreRefused := fun _ hpriv => if_pos hpriv

/-! ## The step after a transfer -/

theorem Effect.priv_machine {i : Instr} {s t : State} (h : Effect i s t) (hs : s.priv = .machine) :
    t.priv = .machine := by
  cases h with
  | traps => rfl
  | writes | links | jumps | advances | stores | emptiesStale | modifiesCsr => simpa using hs

/-- A transfer that names a destination has linked (R230, R231). -/
theorem readX_link {i : Instr} {s t : State} {rd : Reg} {target : Word} (hto : transferTarget s i = some target)
    (h : exec i s = .next t) (hrd : destination i = some rd) (h0 : rd ≠ 0#5) : t.readX rd = s.pc + 4 := by
  cases i with
  | jal | jalr =>
    cases h
    cases hrd
    exact State.readX_setX_self s rd _ h0
  | bne | beq | blt | bge | bltu | bgeu => cases hrd
  | _ => cases hto

/-- Settles O38. -/
theorem misalignedTargetTrapsAtTheNextStep : Obligations.MisalignedTargetTrapsAtTheNextStep :=
  fun _ _ _ hpriv hto h ha =>
    ⟨fun _ => readX_link hto h, stepTraps_of_misaligned ((exec_effect h).priv_machine hpriv) ha⟩

/-! ## Runs -/

/-- A run of a step more is a step and a run from there, for every machine of the host. -/
theorem coreRun_succ_eq_next_iff (M : Host.Core) (k : Nat) (s t : M.State) :
    M.run (k + 1) s = .next t ↔ ∃ u, M.step s = .next u ∧ M.run k u = .next t := by
  cases h : M.step s <;> simp [Host.Core.run, h]

theorem run_zero_eq_next_iff (s t : State) : Host.Core.run core 0 s = .next t ↔ s = t := by
  constructor
  · rintro ⟨⟩
    rfl
  · rintro rfl
    rfl

theorem run_succ_eq_next_iff (k : Nat) (s t : State) : Host.Core.run core (k + 1) s = .next t ↔
    ∃ u, step s = .next u ∧ Host.Core.run core k u = .next t := coreRun_succ_eq_next_iff core k s t

theorem run_succ_eq_next_of_step {s u : State} (h : step s = .next u) (k : Nat) (t : State) :
    Host.Core.run core (k + 1) s = .next t ↔ Host.Core.run core k u = .next t := by
  rw [run_succ_eq_next_iff, h]
  constructor
  · rintro ⟨_, ⟨⟩, hrun⟩
    exact hrun
  · exact fun hrun => ⟨u, rfl, hrun⟩

theorem noHaltBefore_succ_iff (halt : State → Bool) (k : Nat) (s : State) : NoHaltBefore halt (k + 1) s ↔
    halt s = false ∧ ∀ u, step s = .next u → NoHaltBefore halt k u := by
  constructor
  · intro h
    exact ⟨h 0 (Nat.succ_pos k) s rfl, fun u hu j hj v hv =>
      h (j + 1) (Nat.succ_lt_succ hj) v ((run_succ_eq_next_of_step hu j v).2 hv)⟩
  · rintro ⟨h0, h⟩ j hj v hv
    cases j with
    | zero => cases hv; exact h0
    | succ j =>
      obtain ⟨u, hu, hrun⟩ := (run_succ_eq_next_iff j s v).1 hv
      exact h u hu j (Nat.lt_of_succ_lt_succ hj) v hrun

/-- A run is still running exactly when its steps are used up and `halt` has held of no state. -/
theorem runUntil_eq_running_iff (halt : State → Bool) (k : Nat) (s t : State) : runUntil halt k s = .running t ↔
    Host.Core.run core k s = .next t ∧ NoHaltBefore halt (k + 1) s := by
  induction k generalizing s with
  | zero =>
    rw [noHaltBefore_succ_iff, run_zero_eq_next_iff]
    cases h : halt s with
    | true => simp [runUntil_of_halt halt 0 s h]
    | false => simp [runUntil_zero_of_not_halt halt s h, NoHaltBefore]
  | succ k ih =>
    rw [noHaltBefore_succ_iff]
    cases h : halt s with
    | true => simp [runUntil_of_halt halt (k + 1) s h]
    | false =>
      cases hs : step s with
      | next u => simp [runUntil_succ_of_next halt k s u h hs, run_succ_eq_next_of_step hs, ih]
      | fault | refused => simp [runUntil, h, hs, run_succ_eq_next_iff]

/-- `k` steps or fewer from `s` lead to `t`, the first state that `halt` holds of. -/
def EndsWithin (halt : State → Bool) (k : Nat) (s t : State) : Prop :=
  ∃ j ≤ k, Host.Core.run core j s = .next t ∧ halt t = true ∧ NoHaltBefore halt j s

theorem endsWithin_of_halt {halt : State → Bool} (k : Nat) {s : State} (t : State) (h : halt s = true) :
    EndsWithin halt k s t ↔ s = t := by
  constructor
  · rintro ⟨j, -, hrun, -, hno⟩
    cases j with
    | zero => cases hrun; rfl
    | succ j =>
      obtain ⟨hs, -⟩ := (noHaltBefore_succ_iff halt j s).1 hno
      rw [h] at hs
      cases hs
  · rintro rfl
    exact ⟨0, Nat.zero_le k, rfl, h, nofun⟩

/-- A run that has not ended ends one step later than the run from its next state. -/
theorem endsWithin_of_not_halt {halt : State → Bool} (k : Nat) {s : State} (t : State) (h : halt s = false) :
    EndsWithin halt k s t ↔ ∃ m u, k = m + 1 ∧ step s = .next u ∧ EndsWithin halt m u t := by
  constructor
  · rintro ⟨j, hj, hrun, ht, hno⟩
    cases j with
    | zero =>
      cases hrun
      rw [h] at ht
      cases ht
    | succ j =>
      obtain ⟨u, hu, hrun⟩ := (run_succ_eq_next_iff j s t).1 hrun
      obtain ⟨-, hno⟩ := (noHaltBefore_succ_iff halt j s).1 hno
      exact ⟨k - 1, u, by omega, hu, j, by omega, hrun, ht, hno u hu⟩
  · rintro ⟨m, u, rfl, hu, j, hj, hrun, ht, hno⟩
    refine ⟨j + 1, Nat.succ_le_succ hj, (run_succ_eq_next_of_step hu j t).2 hrun, ht, ?_⟩
    refine (noHaltBefore_succ_iff halt j s).2 ⟨h, fun v hv => ?_⟩
    rw [hu] at hv
    cases hv
    exact hno

theorem runUntil_eq_halted_iff (halt : State → Bool) (k : Nat) (s t : State) :
    runUntil halt k s = .halted t ↔ EndsWithin halt k s t := by
  induction k generalizing s with
  | zero =>
    cases h : halt s with
    | true => simp [runUntil_of_halt halt 0 s h, endsWithin_of_halt 0 t h]
    | false => simp [runUntil_zero_of_not_halt halt s h, endsWithin_of_not_halt 0 t h]
  | succ k ih =>
    cases h : halt s with
    | true => simp [runUntil_of_halt halt (k + 1) s h, endsWithin_of_halt (k + 1) t h]
    | false =>
      rw [endsWithin_of_not_halt (k + 1) t h]
      cases hs : step s with
      | next u => simp [runUntil_succ_of_next halt k s u h hs, ih]
      | fault | refused => simp [runUntil, h, hs]

/-- At `JAL x0, 0` the step answers the state itself: the link goes to `x0`, the target is the pc. -/
theorem step_of_atSelfLoop {s : State} (hpriv : s.priv = .machine) (ha : s.pc.toNat % 4 = 0)
    (hpma : s.pma s.pc 4 .fetch = true) (h : s.atSelfLoop = true) : step s = .next s := by
  obtain ⟨hfresh, hfetch⟩ : s.fetchIsStale = false ∧ s.fetchWord = .ok 0x0000006F#32 := by
    simpa [State.atSelfLoop] using h
  have hafter : s.afterFetch = s := by simp [State.afterFetch, hfresh]
  have htarget : s.pc + (0#21).signExtend 32 = s.pc := by simp
  rw [step_of_decode (i := .jal 0#5 0#21) hpriv ha hpma hfetch rfl, hafter]
  show Host.Outcome.next ((s.setX 0#5 (s.pc + 4)).setPc (s.pc + (0#21).signExtend 32)) = _
  rw [htarget]
  rfl

/-- Settles O21. -/
theorem selfLoopSpinsForEver : Obligations.SelfLoopSpinsForEver := by
  refine ⟨fun s k hpriv ha hpma h => ?_,
    fun halt k s t => ⟨runUntil_eq_halted_iff halt k s t, runUntil_eq_running_iff halt k s t⟩⟩
  induction k with
  | zero => rfl
  | succ k ih => exact (run_succ_eq_next_of_step (step_of_atSelfLoop hpriv ha hpma h) k s).2 ih

end Sys2Proof.Machine
end

section
/-!
Instructions that complete: the frame of each shared operation once, then the value each instruction computes, said in
integers or bit by bit.
-/
namespace Sys2Proof.Machine

/-! ## The frames of the shared operations -/

theorem restKept_setPc (s : State) (pc : Word) : RestKept s (s.setPc pc) := by
  simp [RestKept, SystemKept, MemoryKept, CsrsKeptBut, BytesKept]

theorem restKept_setX_setPc (s : State) (rd : Reg) (v pc : Word) : RestKept s ((s.setX rd v).setPc pc) := by
  simp [RestKept, SystemKept, MemoryKept, CsrsKeptBut, BytesKept]

theorem regsKeptBut_setX_setPc (s : State) (rd : Reg) (v pc : Word) :
    RegsKeptBut rd s ((s.setX rd v).setPc pc) :=
  fun r hr => State.readX_setX_of_ne s rd r v hr

section
variable {i : Instr} {s : State} {rd : Reg} {P : Word → Prop} {v : Word}

/-- Writing a register and moving the pc completes with the value written. -/
theorem completesWriting_of_setX {pc : Word} (h : exec i s = .next ((s.setX rd v).setPc pc)) (hv : P v) :
    CompletesWriting i s rd P pc :=
  ⟨_, h, rfl, fun h0 => by rwa [State.setPc_readX, State.readX_setX_self s rd v h0], rfl,
    regsKeptBut_setX_setPc s rd v pc, restKept_setX_setPc s rd v pc⟩

theorem completesWriting_of_writeBack (h : exec i s = writeBack rd v s) (hv : P v) :
    CompletesWriting i s rd P (s.pc + 4) := by
  refine completesWriting_of_setX (h.trans ?_) hv
  rw [writeBack_eq, State.advance, State.setX_pc]

theorem completesWriting_of_linkAndJump {target : Word} (h : exec i s = linkAndJump rd target s)
    (hv : P (s.pc + 4)) : CompletesWriting i s rd P target :=
  completesWriting_of_setX h hv

/-- A branch changes the pc alone, taken or not. -/
theorem completesJumping_of_branchIf {c : Bool} {off : BitVec 13} {pc : Word} (h : exec i s = branchIf c off s)
    (hpc : (if c then branchTarget s off else s.pc + 4) = pc) : CompletesJumping i s pc := by
  subst hpc
  exact ⟨_, h.trans (branchIf_eq c off s), rfl, fun _ => rfl, restKept_setPc s _⟩

end

/-! ## Sums in integers -/

/-- Adding a sign-extended offset, modulo 2^32 (R7, D3). -/
theorem add_signExtend_eq_ofInt {n : Nat} (a : Word) (off : BitVec n) :
    a + off.signExtend 32 = BitVec.ofInt 32 ((a.toNat : Int) + off.toInt) := by
  rw [BitVec.signExtend, BitVec.ofInt_add]
  congr 1
  exact (BitVec.ofInt_natCast 32 a.toNat).trans (BitVec.ofNat_toNat _ _) |>.symm

theorem branchTarget_eq (s : State) (off : BitVec 13) :
    branchTarget s off = BitVec.ofInt 32 ((s.pc.toNat : Int) + off.toInt) :=
  add_signExtend_eq_ofInt s.pc off

theorem jumpTarget_eq (s : State) (off : BitVec 21) :
    jumpTarget s off = BitVec.ofInt 32 ((s.pc.toNat : Int) + off.toInt) :=
  add_signExtend_eq_ofInt s.pc off

/-! ## Branches -/

theorem completesJumping_of_branchIf_ite {i : Instr} {s : State} {c : Bool} {off : BitVec 13} {p : Prop} [Decidable p]
    (h : exec i s = branchIf c off s) (hc : c = true ↔ p) :
    CompletesJumping i s (if p then BitVec.ofInt 32 ((s.pc.toNat : Int) + off.toInt) else s.pc + 4) := by
  refine completesJumping_of_branchIf h ?_
  rw [branchTarget_eq]
  exact if_congr hc rfl rfl

/-- The same for a branch whose condition is negated. -/
theorem completesJumping_of_branchIf_not_ite {i : Instr} {s : State} {c : Bool} {off : BitVec 13} {p : Prop}
    [Decidable p] (h : exec i s = branchIf c off s) (hc : c = true ↔ ¬ p) :
    CompletesJumping i s (if p then s.pc + 4 else BitVec.ofInt 32 ((s.pc.toNat : Int) + off.toInt)) := by
  rw [← ite_not]
  exact completesJumping_of_branchIf_ite h hc

theorem lessSigned_iff (a b : Word) : lessSigned a b = true ↔ a.toInt < b.toInt := BitVec.slt_iff_toInt_lt

theorem lessUnsigned_iff (a b : Word) : lessUnsigned a b = true ↔ a.toNat < b.toNat := by
  simp [lessUnsigned, BitVec.ult]

theorem branchOffset_wellFormed {off : BitVec 13} (h : off.getLsbD 0 = false) : branchOffsetOk off = true := by
  rw [branchOffsetOk, h]
  rfl

/-- Settles O29. -/
theorem bneBeqBranch : Obligations.BneBeqBranch := fun rs1 rs2 off _ h =>
  ⟨decode_encode (.bne rs1 rs2 off) (branchOffset_wellFormed h),
    decode_encode (.beq rs1 rs2 off) (branchOffset_wellFormed h),
    completesJumping_of_branchIf_not_ite rfl bne_iff_ne, completesJumping_of_branchIf_ite rfl beq_iff_eq⟩

/-- Settles O30. -/
theorem bltBgeBranchSigned : Obligations.BltBgeBranchSigned := fun rs1 rs2 off _ h =>
  ⟨decode_encode (.blt rs1 rs2 off) (branchOffset_wellFormed h),
    decode_encode (.bge rs1 rs2 off) (branchOffset_wellFormed h),
    completesJumping_of_branchIf_ite rfl (lessSigned_iff _ _),
    completesJumping_of_branchIf_not_ite rfl (by rw [← lessSigned_iff]; simp)⟩

/-- Settles O31. -/
theorem bltuBgeuBranchUnsigned : Obligations.BltuBgeuBranchUnsigned := fun rs1 rs2 off _ h =>
  ⟨decode_encode (.bltu rs1 rs2 off) (branchOffset_wellFormed h),
    decode_encode (.bgeu rs1 rs2 off) (branchOffset_wellFormed h),
    completesJumping_of_branchIf_ite rfl (lessUnsigned_iff _ _),
    completesJumping_of_branchIf_not_ite rfl (by rw [← lessUnsigned_iff]; simp)⟩

/-! ## Integer operations -/

/-- Adding a sign-extended immediate, read as an unsigned number. -/
theorem toNat_add_signed12 (a : Word) (imm : BitVec 12) :
    ((a + signed12 imm).toNat : Int) = ((a.toNat : Int) + imm.toInt) % 2 ^ 32 := by
  rw [signed12, add_signExtend_eq_ofInt a imm, BitVec.toNat_ofInt]
  omega

theorem toNat_sub_eq (a b : Word) : ((a - b).toNat : Int) = ((a.toNat : Int) - b.toNat) % 2 ^ 32 := by
  rw [BitVec.toNat_sub]
  omega

theorem toNat_upper20 (imm : BitVec 20) : (upper20 imm).toNat = imm.toNat * 2 ^ 12 := by
  rw [upper20, BitVec.toNat_append, BitVec.toNat_ofNat, Nat.zero_mod, Nat.or_zero, Nat.shiftLeft_eq]

theorem truthWord_eq_ite {c : Bool} {p : Prop} [Decidable p] (h : c = true ↔ p) :
    truthWord c = if p then 1#32 else 0#32 := if_congr h rfl rfl

/-- Settles O32. -/
theorem addSubAddiResults : Obligations.AddSubAddiResults := fun rd rs1 rs2 imm _ =>
  ⟨decode_encode (.add rd rs1 rs2) rfl, decode_encode (.sub rd rs1 rs2) rfl, decode_encode (.addi rd rs1 imm) rfl,
    completesWriting_of_writeBack rfl (BitVec.toNat_add _ _), completesWriting_of_writeBack rfl (toNat_sub_eq _ _),
    completesWriting_of_writeBack rfl (toNat_add_signed12 _ imm)⟩

/-- Settles O33. -/
theorem sltSltuResults : Obligations.SltSltuResults := fun rd rs1 rs2 _ =>
  ⟨decode_encode (.slt rd rs1 rs2) rfl, decode_encode (.sltu rd rs1 rs2) rfl,
    completesWriting_of_writeBack rfl (truthWord_eq_ite (lessSigned_iff _ _)),
    completesWriting_of_writeBack rfl (truthWord_eq_ite (lessUnsigned_iff _ _))⟩

theorem toInt_signed12 (imm : BitVec 12) : (signed12 imm).toInt = imm.toInt :=
  BitVec.toInt_signExtend_of_le (by decide)

theorem toNat_signed12 (imm : BitVec 12) : ((signed12 imm).toNat : Int) = imm.toInt % 2 ^ 32 := by
  rw [← toInt_signed12, BitVec.toInt_eq_toNat_cond]
  omega

/-- Settles O34. -/
theorem sltiSltiuResults : Obligations.SltiSltiuResults := fun rd rs1 imm _ =>
  ⟨decode_encode (.slti rd rs1 imm) rfl, decode_encode (.sltiu rd rs1 imm) rfl,
    completesWriting_of_writeBack rfl (truthWord_eq_ite (by rw [lessSigned_iff, toInt_signed12])),
    completesWriting_of_writeBack rfl
      (truthWord_eq_ite (by rw [lessUnsigned_iff, ← toNat_signed12, Int.ofNat_lt]))⟩

/-- Settles O35. -/
theorem luiAuipcResults : Obligations.LuiAuipcResults := fun rd imm _ =>
  ⟨decode_encode (.lui rd imm) rfl, decode_encode (.auipc rd imm) rfl,
    completesWriting_of_writeBack rfl (toNat_upper20 imm),
    completesWriting_of_writeBack rfl (by rw [BitVec.toNat_add, toNat_upper20])⟩

/-! ## Jumps -/

theorem toNat_pc_add_four (s : State) : (s.pc + 4).toNat = (s.pc.toNat + 4) % 2 ^ 32 := BitVec.toNat_add _ _

/-- Settles O36. -/
theorem jalLinksAndJumps : Obligations.JalLinksAndJumps := by
  intro rd off s h
  have heven : jumpOffsetOk off = true := by rw [jumpOffsetOk, h]; rfl
  refine ⟨decode_encode (.jal rd off) heven, ?_⟩
  rw [← jumpTarget_eq]
  exact completesWriting_of_linkAndJump rfl (toNat_pc_add_four s)

/-- Clearing bit 0 is rounding down to an even number (R231). -/
theorem and_clear_bit0 (a : Word) : (a &&& 0xFFFFFFFE#32).toNat = a.toNat / 2 * 2 := by
  have hshift : a &&& 0xFFFFFFFE#32 = (a >>> 1) <<< 1 := by
    apply BitVec.eq_of_getLsbD_eq
    intro k hk
    interval_cases k <;> simp
  rw [hshift, BitVec.toNat_shiftLeft, BitVec.toNat_ushiftRight, Nat.shiftLeft_eq, Nat.shiftRight_eq_div_pow]
  omega

theorem jalrTarget_eq (s : State) (rs1 : Reg) (off : BitVec 12) : jalrTarget s rs1 off =
    BitVec.ofInt 32 ((((s.readX rs1).toNat : Int) + off.toInt) % 2 ^ 32 / 2 * 2) := by
  rw [← toNat_add_signed12]
  apply BitVec.eq_of_toNat_eq
  rw [jalrTarget, and_clear_bit0, BitVec.toNat_ofInt]
  omega

/-- Settles O37. -/
theorem jalrLinksAndJumps : Obligations.JalrLinksAndJumps := by
  intro rd rs1 off s
  refine ⟨decode_encode (.jalr rd rs1 off) rfl, ?_⟩
  rw [← jalrTarget_eq]
  exact completesWriting_of_linkAndJump rfl (toNat_pc_add_four s)

/-! ## Logical operations -/

/-- Bits 31:12 of a sign-extended immediate are copies of its bit 11 (R127). -/
theorem getLsbD_signed12 (imm : BitVec 12) {k : Nat} (hk : k < 32) :
    (signed12 imm).getLsbD k = imm.getLsbD (min k 11) := by
  rw [signed12, BitVec.getLsbD_signExtend]
  by_cases h : k < 12
  · have hmin : min k 11 = k := by omega
    simp [hk, h, hmin]
  · have hmin : min k 11 = 11 := by omega
    simp [hk, h, hmin, BitVec.msb_eq_getLsbD_last]

/-- Settles O39. -/
theorem xorOrAndResults : Obligations.XorOrAndResults := fun rd rs1 rs2 _ =>
  ⟨decode_encode (.xor rd rs1 rs2) rfl, decode_encode (.or rd rs1 rs2) rfl, decode_encode (.and rd rs1 rs2) rfl,
    completesWriting_of_writeBack rfl fun _ _ => BitVec.getLsbD_xor,
    completesWriting_of_writeBack rfl fun _ _ => BitVec.getLsbD_or,
    completesWriting_of_writeBack rfl fun _ _ => BitVec.getLsbD_and⟩

/-- Settles O40. -/
theorem xoriOriAndiResults : Obligations.XoriOriAndiResults := fun rd rs1 imm _ =>
  ⟨decode_encode (.xori rd rs1 imm) rfl, decode_encode (.ori rd rs1 imm) rfl, decode_encode (.andi rd rs1 imm) rfl,
    completesWriting_of_writeBack rfl fun k hk => by rw [BitVec.getLsbD_xor, getLsbD_signed12 imm hk],
    completesWriting_of_writeBack rfl fun k hk => by rw [BitVec.getLsbD_or, getLsbD_signed12 imm hk],
    completesWriting_of_writeBack rfl fun k hk => by rw [BitVec.getLsbD_and, getLsbD_signed12 imm hk]⟩

/-! ## Shifts -/

/-- Settles O42. -/
theorem registerShiftResults : Obligations.RegisterShiftResults := fun rd rs1 rs2 _ =>
  ⟨decode_encode (.sra rd rs1 rs2) rfl, decode_encode (.srl rd rs1 rs2) rfl, decode_encode (.sll rd rs1 rs2) rfl,
    completesWriting_of_writeBack rfl (shiftRightArith_toInt _ _),
    completesWriting_of_writeBack rfl (shiftRightLogical_toNat _ _),
    completesWriting_of_writeBack rfl (shiftLeft_toNat _ _)⟩

/-- Settles O43. -/
theorem immediateShiftResults : Obligations.ImmediateShiftResults := fun rd rs1 shamt _ =>
  ⟨decode_encode (.srai rd rs1 shamt) rfl, decode_encode (.srli rd rs1 shamt) rfl,
    decode_encode (.slli rd rs1 shamt) rfl,
    completesWriting_of_writeBack rfl (shiftRightArith_toInt _ _),
    completesWriting_of_writeBack rfl (shiftRightLogical_toNat _ _),
    completesWriting_of_writeBack rfl (shiftLeft_toNat _ _)⟩

/-! ## Synchronization -/

/-- Settles O52. -/
theorem fenceiEmptiesStale : Obligations.FenceiEmptiesStale := by
  refine ⟨fun w hop h3 => ?_, fun s => ⟨_, rfl, rfl, nofun, fun a i => ?_, fun _ => rfl, ?_, fun _ => rfl, rfl, rfl⟩⟩
  · rw [decode_of_opcode_fence hop, decodeFence, h3]
    rfl
  · exact fetchByte_of_not_isStale i nofun
  · simp [SystemKept, CsrsKeptBut]

/-- Settles O53. -/
theorem fenceChangesThePcAlone : Obligations.FenceChangesThePcAlone := by
  refine ⟨fun w hop h3 => ?_, fun pred succ s => ⟨_, rfl, rfl, fun _ => rfl, restKept_setPc s _⟩⟩
  rw [decode_of_opcode_fence hop, decodeFence, h3]
  rfl

end Sys2Proof.Machine
end

section
/-!
The memory operations (44_memory_ops.md): the value a load reads, the bytes a store leaves, and when they trap or stop.
-/
namespace Sys2Proof.Machine

/-! ## Addresses -/

/-- Settles O44. -/
theorem effectiveAddressIsBasePlusOffset : Obligations.EffectiveAddressIsBasePlusOffset :=
  fun _ _ off => toNat_add_signed12 _ off

/-- Settles O45: an aligned address is at least one width below the top. -/
theorem alignedAccessesDoNotWrap : Obligations.AlignedAccessesDoNotWrap := by
  intro a n i hn ha hi
  have hlt : a.toNat < 2 ^ 32 := a.isLt
  have hwidth : n = 1 ∨ n = 2 ∨ n = 4 := by simpa using hn
  have htop : a.toNat + n ≤ 2 ^ 32 := by rcases hwidth with rfl | rfl | rfl <;> omega
  refine ⟨?_, htop⟩
  rw [byteAddr, BitVec.toNat_add, BitVec.toNat_ofNat, Nat.add_mod_mod, Nat.mod_eq_of_lt (by omega)]

theorem byteAddr_add (a : Word) (k i : Nat) : byteAddr (a + BitVec.ofNat 32 k) i = byteAddr a (k + i) := by
  rw [byteAddr, byteAddr, BitVec.ofNat_add, BitVec.add_assoc]

/-! ## The datum that a run of bytes makes -/

section
variable {m : Memory} {a : Word} {b : Nat → Byte}

theorem memRead_byte (h : ∀ i < 1, m.byteAt (byteAddr a i) = some (b i)) : memRead m a 1 = .ok ((b 0).setWidth 32) :=
  memRead_one m a _ (h 0 (by decide))

theorem memRead_half (h : ∀ i < 2, m.byteAt (byteAddr a i) = some (b i)) :
    memRead m a 2 = .ok ((b 1 ++ b 0).setWidth 32) := by
  rw [memRead_two m a _ _ (h 0 (by decide)) (h 1 (by decide))]
  congr 1
  apply BitVec.eq_of_getLsbD_eq
  intro k hk
  simp only [BitVec.getLsbD_or, BitVec.getLsbD_shiftLeft, BitVec.getLsbD_setWidth, BitVec.getLsbD_append]
  interval_cases k <;> simp

theorem memRead_word (h : ∀ i < 4, m.byteAt (byteAddr a i) = some (b i)) :
    memRead m a 4 = .ok (b 3 ++ b 2 ++ b 1 ++ b 0) := by
  rw [memRead_four m a _ _ _ _ (h 0 (by decide)) (h 1 (by decide)) (h 2 (by decide)) (h 3 (by decide))]
  congr 1
  apply BitVec.eq_of_getLsbD_eq
  intro k hk
  simp only [BitVec.getLsbD_or, BitVec.getLsbD_shiftLeft, BitVec.getLsbD_setWidth, BitVec.getLsbD_append]
  interval_cases k <;> simp

/-- A read that meets a byte without a value stops there (R66). -/
theorem readBytes_of_no_value {i n k : Nat} (hi : i ≤ k) (hk : k < i + n) (h : m.byteAt (byteAddr a k) = none) :
    ∃ e, readBytes m a i n = .error e := by
  induction n generalizing i with
  | zero => omega
  | succ n ih =>
    unfold readBytes
    split
    · exact ⟨_, rfl⟩
    · rename_i v hv
      have hne : i ≠ k := by
        rintro rfl
        rw [h] at hv
        cases hv
      obtain ⟨e, he⟩ := ih (i := i + 1) (by omega) (by omega)
      rw [he]
      exact ⟨e, rfl⟩

theorem memRead_of_no_value {n : Nat} (h : ∃ k < n, m.byteAt (byteAddr a k) = none) : ∃ e, memRead m a n = .error e := by
  obtain ⟨k, hk, hnone⟩ := h
  exact readBytes_of_no_value (Nat.zero_le k) (by omega) hnone

end

/-! ## Loads -/

section
variable {i : Instr} {s : State} {n : Nat} {ext : Word → Nat → Word} {rd : Reg} {ea : Word}
  (h : exec i s = load n ext rd ea s)
include h

theorem completesWriting_of_load {P : Word → Prop} {v : Word} (ha : ea.toNat % n = 0) (hpma : s.pma ea n .load = true)
    (hread : memRead s.mem ea n = .ok v) (hv : P (ext v n)) : CompletesWriting i s rd P (s.pc + 4) :=
  completesWriting_of_writeBack (h.trans (load_eq n ext rd ea v s ((alignedTo_eq_true_iff ea n).2 ha) hpma hread)) hv

theorem traps_of_misaligned_load (ha : ea.toNat % n ≠ 0) : Traps i s 4 s.pc := by
  refine ⟨_, h.trans ?_, tookTrap_takeTrap .loadAddressMisaligned ea s⟩
  simp [load, (alignedTo_eq_false_iff ea n).2 ha, raise_eq]

theorem traps_of_refused_load (ha : ea.toNat % n = 0) (hpma : s.pma ea n .load = false) : Traps i s 5 s.pc := by
  refine ⟨_, h.trans ?_, tookTrap_takeTrap .loadAccessFault ea s⟩
  simp [load, (alignedTo_eq_true_iff ea n).2 ha, hpma, raise_eq]

theorem stops_of_load_of_no_value (ha : ea.toNat % n = 0) (hpma : s.pma ea n .load = true)
    (hnone : ∃ k < n, s.mem.byteAt (byteAddr ea k) = none) : ∃ a, exec i s = .fault (.loadOfUnwrittenByte a) := by
  obtain ⟨a, hread⟩ := memRead_of_no_value hnone
  refine ⟨a, h.trans ?_⟩
  simp [load, (alignedTo_eq_true_iff ea n).2 ha, hpma, hread]

end

theorem signExtendBytes_toInt {n : Nat} (w : BitVec (8 * n)) (hn : n ≤ 4) :
    (signExtendBytes (w.setWidth 32) n).toInt = w.toInt := by
  rw [signExtendBytes, BitVec.setWidth_setWidth_of_le _ (by omega), BitVec.setWidth_eq,
    BitVec.toInt_signExtend_of_le (by omega)]

theorem zeroExtendBytes_toNat {n : Nat} (w : BitVec (8 * n)) (hn : n ≤ 4) :
    (zeroExtendBytes (w.setWidth 32) n).toNat = w.toNat := by
  rw [zeroExtendBytes, BitVec.toNat_setWidth_of_le (by omega), BitVec.setWidth_setWidth_of_le _ (by omega),
    BitVec.setWidth_eq]

/-- Settles O46. -/
theorem loadsComplete : Obligations.LoadsComplete := by
  intro rd rs1 off s b
  refine ⟨decode_encode (.lb rd rs1 off) rfl, decode_encode (.lbu rd rs1 off) rfl, decode_encode (.lh rd rs1 off) rfl,
    decode_encode (.lhu rd rs1 off) rfl, decode_encode (.lw rd rs1 off) rfl, fun hpma hb => ⟨?_, ?_⟩,
    fun ha hpma hb => ⟨?_, ?_⟩, fun ha hpma hb => ?_⟩
  · exact completesWriting_of_load rfl (Nat.mod_one _) hpma (memRead_byte hb)
      (signExtendBytes_toInt (n := 1) _ (by decide))
  · exact completesWriting_of_load rfl (Nat.mod_one _) hpma (memRead_byte hb)
      (zeroExtendBytes_toNat (n := 1) _ (by decide))
  · exact completesWriting_of_load rfl ha hpma (memRead_half hb) (signExtendBytes_toInt (n := 2) _ (by decide))
  · exact completesWriting_of_load rfl ha hpma (memRead_half hb) (zeroExtendBytes_toNat (n := 2) _ (by decide))
  · refine completesWriting_of_load rfl ha hpma (memRead_word hb) ?_
    simp [zeroExtendBytes]

/-- Settles O47. -/
theorem misalignedAndRefusedLoadsTrap : Obligations.MisalignedAndRefusedLoadsTrap := fun _ _ _ _ =>
  ⟨fun ha => ⟨traps_of_misaligned_load rfl ha, traps_of_misaligned_load rfl ha⟩,
    fun ha => traps_of_misaligned_load rfl ha,
    fun hpma => ⟨traps_of_refused_load rfl (Nat.mod_one _) hpma, traps_of_refused_load rfl (Nat.mod_one _) hpma⟩,
    fun ha hpma => ⟨traps_of_refused_load rfl ha hpma, traps_of_refused_load rfl ha hpma⟩,
    fun ha hpma => traps_of_refused_load rfl ha hpma⟩

/-- Settles O48. -/
theorem loadOfNoValueStops : Obligations.LoadOfNoValueStops := by
  refine fun rd rs1 off s => ⟨fun hpma hnone => ?_, fun ha hpma hnone => ?_, fun ha hpma hnone => ?_⟩
  · have hfirst : ∃ k < 1, s.mem.byteAt (byteAddr (effectiveAddress s rs1 off) k) = none := ⟨0, by decide, hnone⟩
    exact ⟨stops_of_load_of_no_value rfl (Nat.mod_one _) hpma hfirst,
      stops_of_load_of_no_value rfl (Nat.mod_one _) hpma hfirst⟩
  · exact ⟨stops_of_load_of_no_value rfl ha hpma hnone, stops_of_load_of_no_value rfl ha hpma hnone⟩
  · exact stops_of_load_of_no_value rfl ha hpma hnone

/-! ## Stores -/

/-- A write stores exactly its bytes and records exactly them (R87, R105). -/
theorem storedBytes_memWrite (s : State) (ea : Word) {n : Nat} (v : Word) (hn : n ≤ 4) :
    StoredBytes s (s.memWrite ea n v).advance ea n v := by
  refine ⟨fun i hi => writeBytes_byteAt_inside s.mem ea v n i hi hn,
    fun a ha => writeBytes_byteAt_outside s.mem ea v n a ha, fun a => ?_, mem_stale_memWrite s ea n v⟩
  constructor
  · rintro ⟨b, hb⟩
    rcases (mem_stale_memWrite s ea n v _).1 hb with hb | ⟨i, hi, he⟩
    · exact .inl ⟨b, hb⟩
    · exact .inr ⟨i, hi, congrArg Prod.fst he⟩
  · rintro (h | ⟨i, hi, rfl⟩)
    · exact isStale_memWrite_of_isStale ea v n h
    · exact ⟨_, (mem_stale_memWrite s ea n v _).2 (.inr ⟨i, hi, rfl⟩)⟩

section
variable {i : Instr} {s : State} {n : Nat} {v ea : Word} (h : exec i s = store n v ea s)
include h

theorem exec_store_of_allowed (ha : ea.toNat % n = 0) (hpma : s.pma ea n .store = true) :
    exec i s = .next (s.memWrite ea n v).advance := by
  rw [h, store_eq]
  simp [(alignedTo_eq_true_iff ea n).2 ha, hpma]

theorem completesStoring_of_store (hn : n ≤ 4) (ha : ea.toNat % n = 0) (hpma : s.pma ea n .store = true) :
    CompletesStoring i s ea n v :=
  ⟨_, exec_store_of_allowed h ha hpma, rfl, storedBytes_memWrite s ea v hn, fun _ => rfl,
    by simp [SystemKept, CsrsKeptBut, State.memWrite], rfl, rfl⟩

theorem traps_of_misaligned_store (ha : ea.toNat % n ≠ 0) : Traps i s 6 s.pc := by
  refine ⟨_, h.trans ?_, tookTrap_takeTrap .storeAddressMisaligned ea s⟩
  simp [store_eq, (alignedTo_eq_false_iff ea n).2 ha]

theorem traps_of_refused_store (ha : ea.toNat % n = 0) (hpma : s.pma ea n .store = false) : Traps i s 7 s.pc := by
  refine ⟨_, h.trans ?_, tookTrap_takeTrap .storeAccessFault ea s⟩
  simp [store_eq, (alignedTo_eq_true_iff ea n).2 ha, hpma]

end

/-- Settles O49. -/
theorem storesComplete : Obligations.StoresComplete := fun rs2 rs1 off _ =>
  ⟨decode_encode (.sb rs2 rs1 off) rfl, decode_encode (.sh rs2 rs1 off) rfl, decode_encode (.sw rs2 rs1 off) rfl,
    fun hpma => completesStoring_of_store rfl (by decide) (Nat.mod_one _) hpma,
    fun ha hpma => completesStoring_of_store rfl (by decide) ha hpma,
    fun ha hpma => completesStoring_of_store rfl (by decide) ha hpma⟩

/-- Settles O50. -/
theorem misalignedAndRefusedStoresTrap : Obligations.MisalignedAndRefusedStoresTrap := fun _ _ _ _ =>
  ⟨fun ha => traps_of_misaligned_store rfl ha, fun ha => traps_of_misaligned_store rfl ha,
    fun hpma => traps_of_refused_store rfl (Nat.mod_one _) hpma,
    fun ha hpma => traps_of_refused_store rfl ha hpma, fun ha hpma => traps_of_refused_store rfl ha hpma⟩

/-! ## Narrow reads of a stored word -/

/-- The bytes from byte `k` of a stored word on (R89). -/
theorem byteAt_writeBytes_word (m : Memory) (a v : Word) (k i : Nat) (h : k + i < 4) :
    (writeBytes m a v 4).byteAt (byteAddr (a + BitVec.ofNat 32 k) i) = some (byteOfWord v (k + i)) := by
  rw [byteAddr_add]
  exact writeBytes_byteAt_inside m a v 4 (k + i) h (le_refl 4)

/-- Some bits of a word, as a word, in integers. -/
theorem setWidth_extractLsb'_eq_ofNat (v : Word) (lo n : Nat) :
    (v.extractLsb' lo n).setWidth 32 = BitVec.ofNat 32 (v.toNat / 2 ^ lo % 2 ^ n) := by
  apply BitVec.eq_of_toNat_eq
  rw [BitVec.toNat_setWidth, BitVec.extractLsb'_toNat, BitVec.toNat_ofNat, Nat.shiftRight_eq_div_pow]

/-- Two neighbouring bytes of a word are a field of sixteen bits. -/
theorem byteOfWord_append (v : Word) (k : Nat) :
    byteOfWord v (k + 1) ++ byteOfWord v k = v.extractLsb' (8 * k) 16 :=
  BitVec.extractLsb'_append_extractLsb'_eq_extractLsb' (by omega)

/-- Settles O51. -/
theorem narrowReadsSeeTheWideStore : Obligations.NarrowReadsSeeTheWideStore := by
  intro rs2 rs1 off s t ha hpma h
  have hmem : t.mem = writeBytes s.mem (effectiveAddress s rs1 off) (s.readX rs2) 4 := by
    rw [exec_store_of_allowed (i := .sw rs2 rs1 off) rfl ha hpma] at h
    cases h
    rfl
  rw [hmem]
  refine ⟨fun k hk => ?_, fun k hk => ?_, ?_⟩
  · rw [memRead_byte fun i hi => byteAt_writeBytes_word _ _ _ k i (by omega), byteOfWord, Nat.add_zero,
      setWidth_extractLsb'_eq_ofNat]
  · rw [memRead_half fun i hi => byteAt_writeBytes_word _ _ _ (2 * k) i (by omega)]
    change Except.ok ((byteOfWord _ (2 * k + 1) ++ byteOfWord _ (2 * k)).setWidth 32) = _
    rw [byteOfWord_append, setWidth_extractLsb'_eq_ofNat, ← Nat.mul_assoc]
  · rw [memRead_word fun i hi => writeBytes_byteAt_inside _ _ _ 4 i hi (le_refl 4)]
    exact congrArg _ (wordOfBytes_extractLsb' _)

end Sys2Proof.Machine
end

section
/-!
The CSR instructions (47_system.md R298): the list of CSRs, what a read-modify-write does to a CSR of each class, and
that a STORE register has no effect on anything else.
-/
namespace Sys2Proof.Machine

/-! ## The list of CSRs -/

theorem Csr.mem_all (c : Csr) : c ∈ Csr.all := by cases c <;> simp [Csr.all]

/-- The address of a CSR is listed as its own. -/
theorem csrAt_addr (c : Csr) : csrAt c.addr = some c := by cases c <;> rfl

theorem csrAt_eq_none_iff (a : CsrAddr) : csrAt a = none ↔ ∀ c : Csr, c.addr ≠ a := by
  simp [csrAt, List.find?_eq_none, Csr.mem_all]

/-! ## What reading and writing a CSR changes -/

/-- Writing a CSR changes the names of that register alone. -/
theorem State.csrValue_csrSet_of_not_mem (s : State) (c d : Csr) (v : Word) (h : d ∉ c.sameCounter) :
    (s.csrSet c v).csrValue d = s.csrValue d := by
  cases c <;> cases d <;> first | rfl | simp [Csr.sameCounter] at h

/-- So does reading it. -/
theorem State.csrValue_refreshCounter_of_not_mem (s : State) (c d : Csr) (h : d ∉ c.sameCounter) :
    (s.refreshCounter c).csrValue d = s.csrValue d := by
  cases c <;> cases d <;> first | rfl | simp [Csr.sameCounter] at h

theorem State.csrValue_csrModified_of_not_mem (s : State) (c d : Csr) (rd : Reg) (new : Word → Word)
    (h : d ∉ c.sameCounter) : (s.csrModified c rd new).csrValue d = s.csrValue d := by
  rw [csrModified, advance_csrValue, setX_csrValue, csrValue_csrSet_of_not_mem _ _ _ _ h,
    csrValue_refreshCounter_of_not_mem _ _ _ h]

/-- Only the 64-bit counters have other names. -/
theorem Csr.sameCounter_of_cls (c : Csr) (h : c.cls ≠ .counter) (h' : c.cls ≠ .roCounter) : c.sameCounter = [c] := by
  cases c <;> first | rfl | exact absurd rfl h | exact absurd rfl h'

theorem setLowHalf_low (c : BitVec 64) (v : Word) : (setLowHalf c v).extractLsb' 0 32 = v := by
  rw [setLowHalf, extract_append_low _ _ _ _ (by decide)]
  exact extract_whole v

/-- `misa` and the read-only counters are left as they are (R44). -/
theorem State.csrSet_of_readOnly (s : State) (c : Csr) (v : Word) (h : c.cls = .ident ∨ c.cls = .roCounter) :
    s.csrSet c v = s := by
  cases c <;> first | rfl | simp [Csr.cls] at h

/-- Every other CSR holds what is written to it, a 64-bit counter in its low half (R44, R50). -/
theorem State.csrValue_csrSet_of_writable (s : State) (c : Csr) (v : Word) (h : c.cls ≠ .ident)
    (h' : c.cls ≠ .roCounter) : (s.csrSet c v).csrValue c = v := by
  by_cases hc : c.cls = .counter
  · cases c with
    | mcycle | minstret => exact setLowHalf_low _ v
    | mhpmcounter3 | mhpmcounter4 | mhpmcounter5 => rfl
    | _ => cases hc
  · exact csrValue_csrSet_self s c v h h' hc

/-- The two hidden counters are written through `mcycle` and `minstret` alone. -/
theorem State.csrSet_cycle_of_ne (s : State) (c : Csr) (v : Word) (h : c ≠ .mcycle) :
    (s.csrSet c v).cycle = s.cycle := by
  cases c <;> first | rfl | exact absurd rfl h

theorem State.csrSet_instret_of_ne (s : State) (c : Csr) (v : Word) (h : c ≠ .minstret) :
    (s.csrSet c v).instret = s.instret := by
  cases c <;> first | rfl | exact absurd rfl h

/-! ## The read-modify-write -/

theorem csrModify_of_allowed {c : Csr} {op : CsrOp} {src : Word} {s : State} (rd : Reg)
    (h : csrWriteRefusal c op src ((s.refreshCounter c).csrValue c) = none) :
    csrModify c op rd src s = .next (s.csrModified c rd fun old => op.apply old src) := by
  simp [csrModify, h, State.csrModified]

theorem csrModify_of_refused {c : Csr} {op : CsrOp} {src : Word} {s : State} {r : Refusal} (rd : Reg)
    (h : csrWriteRefusal c op src ((s.refreshCounter c).csrValue c) = some r) :
    csrModify c op rd src s = .refused r := by
  simp [csrModify, h]

theorem csrInstruction_addr (w : Word) (op : CsrOp) (rd : Reg) (c : Csr) (src : Word) (s : State) :
    csrInstruction w op rd c.addr src s = csrModify c op rd src s := by
  simp [csrInstruction, csrAt_addr]

theorem csrWriteRefusal_of_writable {c : Csr} (op : CsrOp) (src old : Word) (h : c.cls ≠ .ident)
    (h' : c.cls ≠ .roCounter) : csrWriteRefusal c op src old = none := by
  unfold csrWriteRefusal
  split <;> first | rfl | contradiction

theorem csrWriteRefusal_misa (op : CsrOp) (src old : Word) :
    csrWriteRefusal .misa op src old = if op.apply old src = old then none else some .misaWrite := rfl

theorem csrWriteRefusal_readOnlyCounter {c : Csr} (op : CsrOp) (src old : Word) (h : c.cls = .roCounter) :
    csrWriteRefusal c op src old = if op ≠ .write ∧ src = 0 then none else some .readOnlyCounterWrite := by
  simp [csrWriteRefusal, h]

section
variable {i : Instr} {s : State} {rd : Reg} {c : Csr} {op : CsrOp} {src : Word}
  (h : exec i s = csrModify c op rd src s)
include h

/-- On a CSR that is no counter, an allowed write completes with the old value read and the new one held. -/
theorem completesCsr_of_csrModify (hc : c.cls ≠ .counter) (hc' : c.cls ≠ .roCounter)
    (hallowed : csrWriteRefusal c op src (s.csrValue c) = none)
    (hheld : (s.csrSet c (op.apply (s.csrValue c) src)).csrValue c = op.apply (s.csrValue c) src) :
    CompletesCsr i s rd c (s.csrValue c) (op.apply (s.csrValue c) src) := by
  have hrefresh : s.refreshCounter c = s := s.refreshCounter_of_cls c hc hc'
  have hnext := h.trans (csrModify_of_allowed rd (by rwa [hrefresh]))
  have hcycle : c ≠ .mcycle := by rintro rfl; exact hc rfl
  have hinstret : c ≠ .minstret := by rintro rfl; exact hc rfl
  refine ⟨_, hnext, State.csrModified_pc .., ?_, fun h0 => ?_, State.readX_zero _,
    fun r hr => State.csrModified_readX_of_ne _ _ _ _ r hr, fun d hd => ?_, ?_, ?_, State.csrModified_priv ..,
    ⟨fun a => by rw [State.csrModified_mem], State.csrModified_stale .., State.csrModified_pmaRefused ..⟩, ?_⟩
  · rw [State.csrModified, hrefresh, State.advance_csrValue, State.setX_csrValue, hheld]
  · rw [State.csrModified_readX_self _ _ _ _ h0, hrefresh]
  · rw [← Csr.sameCounter_of_cls c hc hc'] at hd
    exact State.csrValue_csrModified_of_not_mem s c d rd _ hd
  · rw [State.csrModified, hrefresh, State.advance_cycle, State.setX_cycle, State.csrSet_cycle_of_ne _ _ _ hcycle]
  · rw [State.csrModified, hrefresh, State.advance_instret, State.setX_instret, State.csrSet_instret_of_ne _ _ _ hinstret]
  · rw [State.csrModified, hrefresh, State.advance_draws, State.setX_draws, State.csrSet_draws]

/-- On a CSR that holds what is written, every write completes (R44). -/
theorem completesCsr_of_holdsWrites (hc : c.holdsWrites) :
    CompletesCsr i s rd c (s.csrValue c) (op.apply (s.csrValue c) src) := by
  have hne {k : CsrClass} (hk : k ≠ .exact ∧ k ≠ .status ∧ k ≠ .store) : c.cls ≠ k := by
    rintro rfl
    simp [Csr.holdsWrites, hk] at hc
  have hident := hne (k := .ident) (by decide)
  have hro := hne (k := .roCounter) (by decide)
  exact completesCsr_of_csrModify h (hne (by decide)) hro (csrWriteRefusal_of_writable _ _ _ hident hro)
    (State.csrValue_csrSet_of_writable _ _ _ hident hro)

/-- On a counter, an allowed write completes with some value read and the new one held (R44, R51). -/
theorem completesCounter_of_csrModify {new : Word → Word}
    (hallowed : csrWriteRefusal c op src ((s.refreshCounter c).csrValue c) = none)
    (hheld : ((s.refreshCounter c).csrSet c (op.apply ((s.refreshCounter c).csrValue c) src)).csrValue c =
      new ((s.refreshCounter c).csrValue c)) : CompletesCounter i s rd c new :=
  ⟨_, h.trans (csrModify_of_allowed rd hallowed), State.csrModified_pc ..,
    ⟨_, State.csrModified_readX_self s c rd _, by
      rw [State.csrModified, State.advance_csrValue, State.setX_csrValue, hheld]⟩,
    State.readX_zero _, fun r hr => State.csrModified_readX_of_ne _ _ _ _ r hr,
    fun d hd => State.csrValue_csrModified_of_not_mem s c d rd _ hd, State.csrModified_priv ..,
    fun a => by rw [State.csrModified_mem], State.csrModified_stale .., State.csrModified_pmaRefused ..⟩

/-- The counters that are not read-only take every write. -/
theorem completesCounter_of_counter (hc : c.cls = .counter) : CompletesCounter i s rd c fun old => op.apply old src := by
  have hident : c.cls ≠ .ident := by rw [hc]; decide
  have hro : c.cls ≠ .roCounter := by rw [hc]; decide
  exact completesCounter_of_csrModify h (csrWriteRefusal_of_writable _ _ _ hident hro)
    (State.csrValue_csrSet_of_writable _ _ _ hident hro)

/-- The read-only counters take a set or clear with a zero mask (R53). -/
theorem completesCounter_of_zero_mask (hc : c.cls = .roCounter) (hop : op ≠ .write) (hsrc : src = 0) :
    CompletesCounter i s rd c fun old => old := by
  refine completesCounter_of_csrModify h ?_ ?_
  · rw [csrWriteRefusal_readOnlyCounter _ _ _ hc, if_pos ⟨hop, hsrc⟩]
  · rw [State.csrSet_of_readOnly _ _ _ (.inr hc)]

/-- And no other write (R53). -/
theorem refused_of_readOnlyCounter (hc : c.cls = .roCounter) (hwrite : op = .write ∨ src ≠ 0) :
    exec i s = .refused .readOnlyCounterWrite := by
  refine h.trans (csrModify_of_refused rd ?_)
  rw [csrWriteRefusal_readOnlyCounter _ _ _ hc, if_neg]
  rintro ⟨hop, hsrc⟩
  exact hwrite.elim hop fun hne => hne hsrc

end

/-- On `misa` a write that would not change it completes, and every other is refused (R44). -/
theorem accessesMisa_of_csrModify {i : Instr} {s : State} {rd : Reg} {op : CsrOp} {src : Word}
    (h : exec i s = csrModify .misa op rd src s) : AccessesMisa i s rd (op.apply (s.csrValue .misa) src) := by
  constructor
  · intro hsame
    have hcompletes := completesCsr_of_csrModify h (by decide) (by decide)
      ((csrWriteRefusal_misa _ _ _).trans (if_pos hsame)) hsame.symm
    rwa [hsame] at hcompletes
  · exact fun hne => h.trans (csrModify_of_refused rd ((csrWriteRefusal_misa _ _ _).trans (if_neg hne)))

/-! ## The six CSR instructions on a CSR -/

theorem zimm_eq_ofNat (uimm : BitVec 5) : zimm uimm = BitVec.ofNat 32 uimm.toNat := by
  apply BitVec.eq_of_toNat_eq
  rw [zimm, BitVec.toNat_setWidth, BitVec.toNat_ofNat]

theorem ofNat_uimm_eq_zero_iff (uimm : BitVec 5) : BitVec.ofNat 32 uimm.toNat = 0 ↔ uimm = 0#5 := by
  constructor
  · intro h
    bv_omega
  · rintro rfl
    rfl

section
variable (rd : Reg) (c : Csr) (rs1 : Reg) (uimm : BitVec 5) (s : State)

theorem exec_csrrw : exec (.csrrw rd c.addr rs1) s = csrModify c .write rd (s.readX rs1) s :=
  csrInstruction_addr ..

theorem exec_csrrs : exec (.csrrs rd c.addr rs1) s = csrModify c .set rd (s.readX rs1) s :=
  csrInstruction_addr ..

theorem exec_csrrc : exec (.csrrc rd c.addr rs1) s = csrModify c .clear rd (s.readX rs1) s :=
  csrInstruction_addr ..

theorem exec_csrrwi : exec (.csrrwi rd c.addr uimm) s = csrModify c .write rd (BitVec.ofNat 32 uimm.toNat) s :=
  zimm_eq_ofNat uimm ▸ csrInstruction_addr ..

theorem exec_csrrsi : exec (.csrrsi rd c.addr uimm) s = csrModify c .set rd (BitVec.ofNat 32 uimm.toNat) s :=
  zimm_eq_ofNat uimm ▸ csrInstruction_addr ..

theorem exec_csrrci : exec (.csrrci rd c.addr uimm) s = csrModify c .clear rd (BitVec.ofNat 32 uimm.toNat) s :=
  zimm_eq_ofNat uimm ▸ csrInstruction_addr ..

end

/-- Settles O54. -/
theorem csrWritesComplete : Obligations.CsrWritesComplete := fun rd rs1 uimm c s hc =>
  ⟨decode_encode (.csrrw rd c.addr rs1) rfl, decode_encode (.csrrwi rd c.addr uimm) rfl,
    completesCsr_of_holdsWrites (exec_csrrw rd c rs1 s) hc, completesCsr_of_holdsWrites (exec_csrrwi rd c uimm s) hc⟩

/-- Settles O55. -/
theorem csrSetsComplete : Obligations.CsrSetsComplete := fun rd rs1 uimm c s hc =>
  ⟨decode_encode (.csrrs rd c.addr rs1) rfl, decode_encode (.csrrsi rd c.addr uimm) rfl,
    completesCsr_of_holdsWrites (exec_csrrs rd c rs1 s) hc, completesCsr_of_holdsWrites (exec_csrrsi rd c uimm s) hc⟩

/-- Settles O56. -/
theorem csrClearsComplete : Obligations.CsrClearsComplete := fun rd rs1 uimm c s hc =>
  ⟨decode_encode (.csrrc rd c.addr rs1) rfl, decode_encode (.csrrci rd c.addr uimm) rfl,
    completesCsr_of_holdsWrites (exec_csrrc rd c rs1 s) hc, completesCsr_of_holdsWrites (exec_csrrci rd c uimm s) hc⟩

/-- Settles O57. -/
theorem counterAccessesComplete : Obligations.CounterAccessesComplete := fun rd rs1 uimm c s hc =>
  ⟨completesCounter_of_counter (exec_csrrw rd c rs1 s) hc, completesCounter_of_counter (exec_csrrs rd c rs1 s) hc,
    completesCounter_of_counter (exec_csrrc rd c rs1 s) hc, completesCounter_of_counter (exec_csrrwi rd c uimm s) hc,
    completesCounter_of_counter (exec_csrrsi rd c uimm s) hc, completesCounter_of_counter (exec_csrrci rd c uimm s) hc⟩

/-- Settles O58: by whether the mask is zero, whatever register or immediate it comes from. -/
theorem readOnlyCounterAccesses : Obligations.ReadOnlyCounterAccesses := by
  intro rd rs1 uimm c s hc
  refine ⟨fun h0 => ⟨?_, ?_⟩, fun h0 => ?_, fun h0 => ⟨?_, ?_⟩, fun h0 => ?_, ?_, ?_⟩
  · exact completesCounter_of_zero_mask (exec_csrrs rd c rs1 s) hc (by decide) h0
  · exact completesCounter_of_zero_mask (exec_csrrc rd c rs1 s) hc (by decide) h0
  · have hmask := (ofNat_uimm_eq_zero_iff uimm).2 h0
    exact ⟨completesCounter_of_zero_mask (exec_csrrsi rd c uimm s) hc (by decide) hmask,
      completesCounter_of_zero_mask (exec_csrrci rd c uimm s) hc (by decide) hmask⟩
  · exact refused_of_readOnlyCounter (exec_csrrs rd c rs1 s) hc (.inr h0)
  · exact refused_of_readOnlyCounter (exec_csrrc rd c rs1 s) hc (.inr h0)
  · have hmask := mt (ofNat_uimm_eq_zero_iff uimm).1 h0
    exact ⟨refused_of_readOnlyCounter (exec_csrrsi rd c uimm s) hc (.inr hmask),
      refused_of_readOnlyCounter (exec_csrrci rd c uimm s) hc (.inr hmask)⟩
  · exact refused_of_readOnlyCounter (exec_csrrw rd c rs1 s) hc (.inl rfl)
  · exact refused_of_readOnlyCounter (exec_csrrwi rd c uimm s) hc (.inl rfl)

/-- Settles O59. -/
theorem misaAccesses : Obligations.MisaAccesses := fun rd rs1 uimm s =>
  ⟨accessesMisa_of_csrModify (exec_csrrw rd .misa rs1 s), accessesMisa_of_csrModify (exec_csrrs rd .misa rs1 s),
    accessesMisa_of_csrModify (exec_csrrc rd .misa rs1 s), accessesMisa_of_csrModify (exec_csrrwi rd .misa uimm s),
    accessesMisa_of_csrModify (exec_csrrsi rd .misa uimm s), accessesMisa_of_csrModify (exec_csrrci rd .misa uimm s)⟩

/-- A CSR instruction at an address that is no CSR's is an illegal instruction (R146, R403). -/
theorem traps_of_unlisted {i : Instr} {s : State} {w : Word} {op : CsrOp} {rd : Reg} {a : CsrAddr} {src : Word}
    (ha : csrAt a = none) (h : exec i s = csrInstruction w op rd a src s) : Traps i s 2 s.pc := by
  refine ⟨_, h.trans ?_, tookTrap_takeTrap .illegalInstruction w s⟩
  simp [csrInstruction, ha, raise_eq]

/-- Settles O60: the list of the statement is that of the model. -/
theorem unlistedCsrTraps : Obligations.UnlistedCsrTraps := by
  constructor
  · decide
  · intro rd rs1 uimm a s ha
    change a ∉ Csr.all.map Csr.addr at ha
    have haddr (c : Csr) : c.addr ≠ a := by
      rintro rfl
      exact ha (List.mem_map_of_mem c.mem_all)
    have hnone := (csrAt_eq_none_iff a).2 haddr
    exact ⟨hnone, haddr, traps_of_unlisted hnone rfl, traps_of_unlisted hnone rfl, traps_of_unlisted hnone rfl,
      traps_of_unlisted hnone rfl, traps_of_unlisted hnone rfl, traps_of_unlisted hnone rfl⟩

end Sys2Proof.Machine
end

section
/-!
A STORE register has no effect (10_state.md R44, R52): writing one commutes with every operation of the state, with
every instruction that does not name it, and so with the step.
-/
namespace Sys2Proof.Machine

/-! ## Writing a CSR commutes with the updates of the state -/

section
variable (s : State) (c : Csr) (v : Word)

theorem State.csrSet_setPc (pc : Word) : (s.setPc pc).csrSet c v = (s.csrSet c v).setPc pc := by cases c <;> rfl

theorem State.csrSet_setX (rd : Reg) (w : Word) : (s.setX rd w).csrSet c v = (s.csrSet c v).setX rd w := by
  by_cases h : rd = 0#5
  · subst h
    rfl
  · unfold setX
    rw [dif_neg h, dif_neg h]
    cases c <;> rfl

theorem State.csrSet_advance : s.advance.csrSet c v = (s.csrSet c v).advance := by cases c <;> rfl

theorem State.csrSet_setStale (l : List (Nat × Option Byte)) :
    (s.setStale l).csrSet c v = (s.csrSet c v).setStale l := by cases c <;> rfl

theorem State.csrSet_memWrite (a : Word) (n : Nat) (w : Word) :
    (s.memWrite a n w).csrSet c v = (s.csrSet c v).memWrite a n w := by cases c <;> rfl

theorem State.csrSet_nextDraw : s.nextDraw.csrSet c v = (s.csrSet c v).nextDraw := by cases c <;> rfl

/-- A write that goes to no counter leaves room for a counter's own value. -/
theorem State.csrSet_setCycle (n : BitVec 64) (hc : c ≠ .mcycle) :
    (s.setCycle n).csrSet c v = (s.csrSet c v).setCycle n := by
  cases c <;> first | rfl | exact absurd rfl hc

theorem State.csrSet_setInstret (n : BitVec 64) (hc : c ≠ .minstret) :
    (s.setInstret n).csrSet c v = (s.csrSet c v).setInstret n := by
  cases c <;> first | rfl | exact absurd rfl hc

end

/-- A file of CSRs is known by what its registers read as. -/
theorem csr_eq_of_csrValue_eq {s t : State} (h : ∀ c, s.csrValue c = t.csrValue c) : s.csr = t.csr := by
  rcases s with ⟨_, _, _, ⟨⟩⟩
  rcases t with ⟨_, _, _, ⟨⟩⟩
  exact CsrFile.mk.injEq .. ▸ ⟨h .mstatus, h .misa, h .medeleg, h .mideleg, h .mie, h .mtvec, h .mcounteren,
    h .mscratch, h .mepc, h .mcause, h .mtval, h .mip, h .pmpcfg0, h .pmpaddr0, h .pmpaddr1, h .pmpaddr2, h .pmpaddr3,
    h .mhpmcounter3, h .mhpmcounter4, h .mhpmcounter5, h .mhpmevent3, h .mhpmevent4, h .mhpmevent5, h .sstatus, h .sie,
    h .stvec, h .sscratch, h .sepc, h .scause, h .stval, h .sip, h .satp⟩

/-- A write to a register of one name goes to the file of CSRs. -/
theorem csrSet_eq_setCsr (s : State) {c : Csr} (v : Word) (hc : c.sameCounter = [c]) :
    s.csrSet c v = s.setCsr (s.csrSet c v).csr := by
  cases c <;> first | rfl | cases hc

theorem csrSet_csrSet_eq_setCsr (s : State) {c d : Csr} (v w : Word) (hc : c.sameCounter = [c])
    (hd : d.sameCounter = [d]) : (s.csrSet d w).csrSet c v = s.setCsr ((s.csrSet d w).csrSet c v).csr :=
  (csrSet_eq_setCsr (s.csrSet d w) v hc).trans
    (congrArg (fun u => u.setCsr ((s.csrSet d w).csrSet c v).csr) (csrSet_eq_setCsr s w hd))

/-- Two writes to registers of one name, that hold what is written, commute: every register reads the same
afterwards. -/
theorem csrSet_csrSet_of_single (s : State) {c d : Csr} (v w : Word) (hne : d ≠ c)
    (hc : c.sameCounter = [c]) (hd : d.sameCounter = [d])
    (hcv : ∀ u : State, (u.csrSet c v).csrValue c = v) (hdw : ∀ u : State, (u.csrSet d w).csrValue d = w) :
    (s.csrSet d w).csrSet c v = (s.csrSet c v).csrSet d w := by
  have keep_c (u : State) {e : Csr} (he : e ≠ c) : (u.csrSet c v).csrValue e = u.csrValue e :=
    u.csrValue_csrSet_of_not_mem c e v (by simpa [hc] using he)
  have keep_d (u : State) {e : Csr} (he : e ≠ d) : (u.csrSet d w).csrValue e = u.csrValue e :=
    u.csrValue_csrSet_of_not_mem d e w (by simpa [hd] using he)
  have hcsr : ((s.csrSet d w).csrSet c v).csr = ((s.csrSet c v).csrSet d w).csr := by
    apply csr_eq_of_csrValue_eq
    intro e
    by_cases hec : e = c
    · subst hec
      rw [hcv, keep_d _ (Ne.symm hne), hcv]
    · by_cases hed : e = d
      · subst hed
        rw [keep_c _ hec, hdw, hdw]
      · rw [keep_c _ hec, keep_d _ hed, keep_d _ hed, keep_c _ hec]
  rw [csrSet_csrSet_eq_setCsr s v w hc hd, csrSet_csrSet_eq_setCsr s w v hd hc, hcsr]

/-- The registers with other names are the read-only counters, `mcycle` and `minstret`. -/
theorem Csr.sameCounter_of_ne (c : Csr) (h : c.cls ≠ .roCounter) (hcycle : c ≠ .mcycle) (hinstret : c ≠ .minstret) :
    c.sameCounter = [c] := by
  cases c <;> first | rfl | exact absurd rfl h | exact absurd rfl hcycle | exact absurd rfl hinstret

section
variable (s : State) (c : Csr) (v : Word) (hc : c.cls = .store)
include hc

theorem State.csrValue_csrSet_of_store (d : Csr) (h : d ≠ c) : (s.csrSet c v).csrValue d = s.csrValue d := by
  apply csrValue_csrSet_of_not_mem
  rw [Csr.sameCounter_of_cls c (by rw [hc]; decide) (by rw [hc]; decide)]
  simpa using h

/-- A write to a STORE register commutes with a write to any other register. -/
theorem State.csrSet_csrSet (d : Csr) (w : Word) (hne : d ≠ c) :
    (s.csrSet d w).csrSet c v = (s.csrSet c v).csrSet d w := by
  have hcls {k : CsrClass} (hk : k ≠ .store) : c.cls ≠ k := hc ▸ hk.symm
  have hcycle : c ≠ .mcycle := by rintro rfl; cases hc
  have hinstret : c ≠ .minstret := by rintro rfl; cases hc
  by_cases hd : d.cls = .ident ∨ d.cls = .roCounter
  · rw [csrSet_of_readOnly _ _ _ hd, csrSet_of_readOnly _ _ _ hd]
  · obtain ⟨hident, hro⟩ := not_or.1 hd
    by_cases h : d = .mcycle ∨ d = .minstret
    · rcases h with rfl | rfl
      · rw [csrSet, csrSet_setCycle _ _ _ _ hcycle, csrSet, csrSet_cycle_of_ne _ _ _ hcycle]
      · rw [csrSet, csrSet_setInstret _ _ _ _ hinstret, csrSet, csrSet_instret_of_ne _ _ _ hinstret]
    · obtain ⟨hdcycle, hdinstret⟩ := not_or.1 h
      exact csrSet_csrSet_of_single s v w hne (c.sameCounter_of_ne (hcls (by decide)) hcycle hinstret)
        (d.sameCounter_of_ne hro hdcycle hdinstret)
        (fun u => u.csrValue_csrSet_of_writable c v (hcls (by decide)) (hcls (by decide)))
        (fun u => u.csrValue_csrSet_of_writable d w hident hro)

/-- A STORE register is no counter. -/
theorem State.csrSet_refreshCounter (d : Csr) : (s.refreshCounter d).csrSet c v = (s.csrSet c v).refreshCounter d := by
  have hcycle : c ≠ .mcycle := by rintro rfl; cases hc
  have hinstret : c ≠ .minstret := by rintro rfl; cases hc
  have hhpm {d : Csr} (n : Nat) (hd : d ≠ c) : (s.csrSet d (Config.hpmDraw n s.draws)).nextDraw.csrSet c v =
      ((s.csrSet c v).csrSet d (Config.hpmDraw n (s.csrSet c v).draws)).nextDraw := by
    rw [csrSet_nextDraw, csrSet_csrSet s c v hc d _ hd, csrSet_draws]
  cases d with
  | mcycle | ucycle | ucycleh =>
    rw [refreshCounter, csrSet_nextDraw, csrSet_setCycle _ _ _ _ hcycle, refreshCounter, csrSet_draws]
  | minstret | uinstret | uinstreth =>
    rw [refreshCounter, csrSet_nextDraw, csrSet_setInstret _ _ _ _ hinstret, refreshCounter, csrSet_draws]
  | mhpmcounter3 => exact hhpm (d := .mhpmcounter3) 3 (by rintro rfl; cases hc)
  | mhpmcounter4 => exact hhpm (d := .mhpmcounter4) 4 (by rintro rfl; cases hc)
  | mhpmcounter5 => exact hhpm (d := .mhpmcounter5) 5 (by rintro rfl; cases hc)
  | _ => rfl

/-- Trap entry neither reads nor writes a STORE register: its pc is `mtvec`, and no delegation is looked at. -/
theorem State.csrSet_takeTrap (k : Cause) (info : Word) :
    (takeTrap k info s).csrSet c v = takeTrap k info (s.csrSet c v) := by
  cases c <;> first | rfl | cases hc

end

/-! ## It commutes with the shared operations -/

/-- The same answer, with `v` in `c` in the next state. -/
def withCsr (c : Csr) (v : Word) : Result → Result
  | .next t => .next (t.csrSet c v)
  | .fault r => .fault r
  | .refused r => .refused r

section
variable (s : State) (c : Csr) (v : Word)

theorem writeBack_csrSet (rd : Reg) (w : Word) : writeBack rd w (s.csrSet c v) = withCsr c v (writeBack rd w s) := by
  rw [writeBack_eq, writeBack_eq, withCsr, State.csrSet_advance, State.csrSet_setX]

theorem linkAndJump_csrSet (rd : Reg) (target : Word) :
    linkAndJump rd target (s.csrSet c v) = withCsr c v (linkAndJump rd target s) := by
  rw [linkAndJump_eq, linkAndJump_eq, withCsr, State.csrSet_setPc, State.csrSet_setX, State.csrSet_pc]

theorem branchIf_csrSet (b : Bool) (off : BitVec 13) :
    branchIf b off (s.csrSet c v) = withCsr c v (branchIf b off s) := by
  rw [branchIf_eq, branchIf_eq, withCsr, State.csrSet_setPc, branchTarget, branchTarget, State.csrSet_pc]

theorem pma_csrSet (a : Word) (n : Nat) (k : AccessKind) : (s.csrSet c v).pma a n k = s.pma a n k := by
  rw [State.pma, State.pma, State.csrSet_pmaRefused]

theorem effectiveAddress_csrSet (rs1 : Reg) (off : BitVec 12) :
    effectiveAddress (s.csrSet c v) rs1 off = effectiveAddress s rs1 off := by
  rw [effectiveAddress, effectiveAddress, State.csrSet_readX]

variable (hc : c.cls = .store)
include hc

theorem raise_csrSet (k : Cause) (info : Word) : raise k info (s.csrSet c v) = withCsr c v (raise k info s) := by
  rw [raise_eq, raise_eq, withCsr, State.csrSet_takeTrap s c v hc]

theorem load_csrSet (n : Nat) (ext : Word → Nat → Word) (rd : Reg) (ea : Word) :
    load n ext rd ea (s.csrSet c v) = withCsr c v (load n ext rd ea s) := by
  unfold load
  rw [pma_csrSet, State.csrSet_mem]
  split
  · exact raise_csrSet s c v hc _ _
  · split
    · exact raise_csrSet s c v hc _ _
    · split
      · rfl
      · exact writeBack_csrSet s c v rd _

theorem store_csrSet (n : Nat) (w ea : Word) : store n w ea (s.csrSet c v) = withCsr c v (store n w ea s) := by
  unfold store
  rw [pma_csrSet]
  split
  · exact raise_csrSet s c v hc _ _
  · split
    · exact raise_csrSet s c v hc _ _
    · rw [withCsr, State.csrSet_advance, State.csrSet_memWrite]

/-- A CSR instruction on another register does not tell the value of a STORE register. -/
theorem csrModify_csrSet (d : Csr) (op : CsrOp) (rd : Reg) (src : Word) (h : d ≠ c) :
    csrModify d op rd src (s.csrSet c v) = withCsr c v (csrModify d op rd src s) := by
  have hold : ((s.csrSet c v).refreshCounter d).csrValue d = (s.refreshCounter d).csrValue d := by
    rw [← State.csrSet_refreshCounter s c v hc, State.csrValue_csrSet_of_store _ c v hc d h]
  cases hr : csrWriteRefusal d op src ((s.refreshCounter d).csrValue d) with
  | some r => rw [csrModify_of_refused rd hr, csrModify_of_refused rd (hold ▸ hr), withCsr]
  | none =>
    rw [csrModify_of_allowed rd hr, csrModify_of_allowed rd (hold ▸ hr), withCsr, State.csrModified,
      State.csrModified, hold, State.csrSet_advance, State.csrSet_setX, State.csrSet_csrSet _ c v hc d _ h,
      State.csrSet_refreshCounter s c v hc]

theorem csrInstruction_csrSet (w : Word) (op : CsrOp) (rd : Reg) (a : CsrAddr) (src : Word) (ha : a ≠ c.addr) :
    csrInstruction w op rd a src (s.csrSet c v) = withCsr c v (csrInstruction w op rd a src s) := by
  unfold csrInstruction
  split
  · exact raise_csrSet s c v hc _ _
  · rename_i d hd
    refine csrModify_csrSet s c v hc d op rd src ?_
    rintro rfl
    exact ha (addr_of_csrAt a d hd).symm

/-! ## It commutes with every instruction that does not name the register, and with the step -/

theorem exec_csrSet (i : Instr) (h : csrAddress i ≠ some c.addr) :
    exec i (s.csrSet c v) = withCsr c v (exec i s) := by
  have hname {a : CsrAddr} (ha : csrAddress i = some a) : a ≠ c.addr := by
    rintro rfl
    exact h ha
  cases i with
  | bne | beq | blt | bge | bltu | bgeu =>
    simp only [exec, execBne, execBeq, execBlt, execBge, execBltu, execBgeu, State.csrSet_readX, branchIf_csrSet]
  | auipc | slt | sltu | slti | sltiu | lui | add | sub | addi =>
    simp only [exec, execAuipc, execSlt, execSltu, execSlti, execSltiu, execLui, execAdd, execSub, execAddi,
      State.csrSet_readX, State.csrSet_pc, writeBack_csrSet]
  | xor | or | and | ori | xori | andi =>
    simp only [exec, execXor, execOr, execAnd, execOri, execXori, execAndi, State.csrSet_readX, writeBack_csrSet]
  | srai | slli | sra | srl | sll | srli =>
    simp only [exec, execSrai, execSlli, execSra, execSrl, execSll, execSrli, registerShamt, State.csrSet_readX,
      writeBack_csrSet]
  | jal | jalr =>
    simp only [exec, execJal, execJalr, jumpTarget, jalrTarget, State.csrSet_readX, State.csrSet_pc,
      linkAndJump_csrSet]
  | lb | lh | lw | lbu | lhu =>
    simp only [exec, execLb, execLh, execLw, execLbu, execLhu, effectiveAddress_csrSet, load_csrSet s c v hc]
  | sb | sh | sw =>
    simp only [exec, execSb, execSh, execSw, effectiveAddress_csrSet, State.csrSet_readX, store_csrSet s c v hc]
  | fence => exact congrArg _ (s.csrSet_advance c v).symm
  | fencei =>
    rw [exec, execFencei, exec, execFencei, withCsr, State.csrSet_advance, State.csrSet_setStale]
  | ecall =>
    rw [exec, execEcall, State.csrSet_priv]
    exact raise_csrSet s c v hc _ _
  | ebreak => exact raise_csrSet s c v hc _ _
  | csrrw | csrrs | csrrc =>
    simp only [exec, execCsrrw, execCsrrs, execCsrrc, State.csrSet_readX]
    exact csrInstruction_csrSet s c v hc _ _ _ _ _ (hname rfl)
  | csrrwi | csrrsi | csrrci => exact csrInstruction_csrSet s c v hc _ _ _ _ _ (hname rfl)

end

theorem fetchByte_csrSet (s : State) (c : Csr) (v : Word) (a i : Nat) :
    (s.csrSet c v).fetchByte a i = s.fetchByte a i := by
  simp only [State.fetchByte, State.csrSet_stale, State.csrSet_mem, State.csrSet_draws]

theorem fetchWord_csrSet (s : State) (c : Csr) (v : Word) : (s.csrSet c v).fetchWord = s.fetchWord := by
  simp only [State.fetchWord, fetchByte_csrSet, State.csrSet_pc]

theorem afterFetch_csrSet (s : State) (c : Csr) (v : Word) :
    (s.csrSet c v).afterFetch = s.afterFetch.csrSet c v := by
  have hstale : (s.csrSet c v).fetchIsStale = s.fetchIsStale := by
    simp only [State.fetchIsStale, State.csrSet_stale, State.csrSet_pc]
  rw [State.afterFetch, State.afterFetch, hstale]
  split
  · rw [State.csrSet_nextDraw]
  · rfl

/-- Settles O26: every check of the step answers alike, and what it then does commutes with the write. -/
theorem storeCsrsHaveNoEffect : Obligations.StoreCsrsHaveNoEffect := by
  intro s t c v hc h hname
  obtain ⟨hpriv, hcases⟩ := step_next s t h
  have hpriv' : (s.csrSet c v).priv = .machine := (s.csrSet_priv c v).trans hpriv
  rcases hcases with ⟨ha, rfl⟩ | ⟨ha, hpma, rfl⟩ | ⟨ha, hpma, w, hw, hdecoded⟩
  · rw [step_of_misaligned hpriv' (by rwa [State.csrSet_pc, ← alignedTo_eq_false_iff]), State.csrSet_pc, raise_eq,
      State.csrSet_takeTrap s c v hc]
  · rw [step_of_refused_fetch hpriv' (by rwa [State.csrSet_pc, ← alignedTo_eq_true_iff])
      (by rwa [State.csrSet_pc, pma_csrSet]), State.csrSet_pc, raise_eq, State.csrSet_takeTrap s c v hc]
  · have ha' : (s.csrSet c v).pc.toNat % 4 = 0 := by rwa [State.csrSet_pc, ← alignedTo_eq_true_iff]
    have hpma' : (s.csrSet c v).pma (s.csrSet c v).pc 4 .fetch = true := by rwa [State.csrSet_pc, pma_csrSet]
    have hw' : (s.csrSet c v).fetchWord = .ok w := (fetchWord_csrSet s c v).trans hw
    rcases hdecoded with ⟨e, he, rfl⟩ | ⟨i, hi, hexec⟩
    · rw [step_of_illegal hpriv' ha' hpma' hw' he, afterFetch_csrSet, raise_eq, State.csrSet_takeTrap _ c v hc]
    · rw [step_of_decode hpriv' ha' hpma' hw' hi, afterFetch_csrSet, exec_csrSet _ c v hc i (hname w i hw hi), hexec,
        withCsr]

end Sys2Proof.Machine
end
